-- ==== Sys2Proof/Word.lean ====
section
/-! DEFINITION. The widths of rule R9 and R91: bytes, half-words and words, all unsigned. -/

namespace Sys2Proof

/-- One byte: a packet type, a data byte, a byte of a caller buffer (rules R22, R61). -/
abbrev Byte := BitVec 8

/-- A 16-bit field: `LEN`, `CAP`, the byte count of a long response (rules R91, R103). -/
abbrev Half := BitVec 16

/-- A 32-bit word: a request word, a FIFO word, an interrupt mask (rules R62, R91). -/
abbrev Word := BitVec 32

end Sys2Proof
end

