-- ==== Sys2Proof/Syntax.lean ====
section
/-! DEFINITION. The operations a host can request (rules R6, R92, R93) with their operands, and the request descriptor
that carries one (rule R90). One constructor of `Instr` per row of spec/opcode_table.json. -/

namespace Sys2Proof

/-- A caller buffer handle: a finite array of bytes (rule R61). `base` is where byte 0 lies in the host's byte memory
and `length` how many bytes the handle names (DESIGN CHOICE, notes/assumptions/9). -/
structure BufHandle where
  base   : Nat
  length : Nat
deriving DecidableEq, Repr, Inhabited

/-- A request descriptor: the two words REQ0 and REQ1 and at most one buffer handle (rules R90, R91, R112). -/
structure Request where
  req0 : Word
  req1 : Word
  buf  : Option BufHandle
deriving DecidableEq, Repr, Inhabited

/-- The operation set (rules R6, R92) and the eight reserved codes (rule R93). A reserved request keeps every bit that
is not its operation code, since rule R93 answers it whatever they are (notes/assumptions/15). -/
inductive Instr where
  | enable
  | disable
  | enterLp
  | exitLp
  | doze
  | dozeSuspend
  /-- `WRITE`: packet type, the two data bytes of the short form, payload length and payload of the long form. -/
  | write (ty d0 d1 : Byte) (len : Half) (buf : Option BufHandle)
  /-- `READ`: packet type, address, `max_len`, capacity and the buffer `out`. -/
  | read (ty addr : Byte) (maxLen cap : Half) (buf : Option BufHandle)
  | reserved6 (rest : BitVec 28) (req1 : Word)
  | reserved7 (rest : BitVec 28) (req1 : Word)
  | reservedA (rest : BitVec 28) (req1 : Word)
  | reservedB (rest : BitVec 28) (req1 : Word)
  | reservedC (rest : BitVec 28) (req1 : Word)
  | reservedD (rest : BitVec 28) (req1 : Word)
  | reservedE (rest : BitVec 28) (req1 : Word)
  | reservedF (rest : BitVec 28) (req1 : Word)
deriving DecidableEq, Repr

/-- How many bytes a request's buffer handle names; no handle names none (notes/assumptions/17). -/
def bufLength : Option BufHandle → Nat
  | none => 0
  | some h => h.length

end Sys2Proof
end

