-- ==== Sys2Proof/Config.lean ====
section
/-! DEFINITION. What an implementation fixes: the parameters of rule R7, the opaque configuration of rule R40, and the free
values. A constant with no body here is a value the spec leaves open: no proof can evaluate it. -/

namespace Sys2Proof

/-- A positive natural number, written as one more than `pred`, so that no other value can be built (rule R7, "> 0"). -/
structure PosNat where
  pred : Nat
deriving DecidableEq, Repr, Inhabited

/-- The number a `PosNat` stands for. -/
def PosNat.val (p : PosNat) : Nat := p.pred + 1

/-- The class of a packet type (rules R7, R97). -/
inductive PacketClass where
  | shortWrite | readReq | longWrite | unrecognized
deriving DecidableEq, Repr, Inhabited

/-- The class of the low byte of an RX FIFO word (rules R7, R103). -/
inductive TagClass where
  | ackErr | eot | short1 | short2 | long | other
deriving DecidableEq, Repr, Inhabited

/-- Which panel callback ENABLE invokes after bring-up (rule R143, parameter `PANEL_WAKE_CB`). -/
inductive PanelWake where
  | sleepOut | displayOn
deriving DecidableEq, Repr, Inhabited

/-- The implementation parameters of rule R7 that an operation reads. The three maps are given as finite tables, which
can hold every map from bytes (notes/assumptions/6). -/
structure Params where
  /-- `HAS_DOZE`. -/
  hasDoze      : Bool
  /-- `PANEL_WAKE_CB`. -/
  panelWake    : PanelWake
  /-- `WR_TIMEOUT`, in ticks. -/
  wrTimeout    : PosNat
  /-- `RD_TIMEOUT`, in ticks. -/
  rdTimeout    : PosNat
  /-- `RX_FIFO_DEPTH`. -/
  rxFifoDepth  : PosNat
  /-- `PL_FIFO_CAPACITY`, in bytes. -/
  plCapacity   : Nat
  /-- `T_SET_MAX_RETURN`. -/
  setMaxReturn : Byte
  /-- `classify` for every other type; a type in no row is Unrecognized. -/
  typeTable    : List (Byte × PacketClass)
  /-- `ack_required(ShortWrite, _)`: the command bytes for which it is true. -/
  ackShort     : List Byte
  /-- `ack_required(LongWrite, _)`: the command bytes for which it is true. -/
  ackLong      : List Byte
  /-- `rx_tag_class`; a tag in no row is Other. -/
  tagTable     : List (Byte × TagClass)
deriving DecidableEq, Repr, Inhabited

/-- `classify` (rule R98). Rule R7 demands that `T_SET_MAX_RETURN` is a ShortWrite, so it is one here by definition. -/
def Params.classify (p : Params) (ty : Byte) : PacketClass :=
  if ty = p.setMaxReturn then .shortWrite else (p.typeTable.lookup ty).getD .unrecognized

/-- `ack_required(cls, cmd)` (rule R99), over the two classes it is given for. With no command byte, a long write of
length 0, it is false (DEDUCED, notes/assumptions/20). -/
def Params.ackRequired (p : Params) (cls : PacketClass) (cmd : Option Byte) : Bool :=
  match cls, cmd with
  | .shortWrite, some c => p.ackShort.contains c
  | .longWrite, some c => p.ackLong.contains c
  | _, _ => false

/-- `rx_tag_class` (rule R106). -/
def Params.rxTagClass (p : Params) (tag : Byte) : TagClass :=
  (p.tagTable.lookup tag).getD .other

/-- The default tables of rules R7, R98, R99 and R106, "offered for test vectors only": the model's tests use them and
nothing else does. -/
def Params.defaults : Params where
  hasDoze := true
  panelWake := .sleepOut
  wrTimeout := ⟨49⟩
  rdTimeout := ⟨99⟩
  rxFifoDepth := ⟨63⟩
  plCapacity := 2048
  setMaxReturn := 0x37
  typeTable :=
    [(0x03, .shortWrite), (0x13, .shortWrite), (0x23, .shortWrite), (0x05, .shortWrite), (0x15, .shortWrite),
     (0x07, .shortWrite), (0x02, .shortWrite), (0x12, .shortWrite), (0x22, .shortWrite), (0x32, .shortWrite)] ++
    [(0x04, .readReq), (0x14, .readReq), (0x24, .readReq), (0x06, .readReq)] ++
    [(0x29, .longWrite), (0x39, .longWrite), (0x0A, .longWrite)]
  ackShort := [0x01, 0x10, 0x11, 0x28, 0x29, 0x2A, 0x2B]
  ackLong := []
  tagTable :=
    [(0x02, .ackErr), (0x08, .eot), (0x11, .short1), (0x21, .short1), (0x12, .short2), (0x22, .short2),
     (0x1A, .long), (0x1C, .long)]

/-- The lane, clock and panel-timing configuration (rule R40). The spec gives no width, unit or range for any field, and
the LCC reads none: numbers and lists of numbers (DESIGN CHOICE, notes/assumptions/8). -/
structure LinkConfig where
  laneCount     : Nat
  laneMask      : Nat
  hsClk         : Nat
  escClk        : Nat
  wordClk       : Nat
  resolution    : List Nat
  porches       : List Nat
  pllP          : Nat
  pllM          : Nat
  pllS          : Nat
  pllK          : Nat
  multiResTable : List (List Nat)
  hdrTable      : List (List Nat)
deriving DecidableEq, Repr, Inhabited

/-- One turn of the machine: what moves next. Rule R70 lets any enabled micro-step of any agent be next, and rules R61
and R90 have the host store into a buffer or present a request; so a turn is a free value (notes/assumptions/2, 10). -/
inductive Turn where
  /-- Caller agent `a` takes `more + 1` micro-steps in a row, or fewer if it blocks or returns (notes/assumptions/4). -/
  | caller (a more : Nat)
  /-- The interrupt agent takes its next micro-step (rule R260). -/
  | irq
  /-- The watchdog agent takes its step, if it is enabled (rule R243). -/
  | wdt
  /-- Time advances by one tick (rule R231). -/
  | tick
  /-- The host, or a panel inside a callback, presents a request at caller `a`'s port (rules R90, R301). -/
  | request (a : Nat) (r : Request)
  /-- The host stores a byte into its buffer memory (rule R61). That the store takes effect also while an operation has the
  buffer, where rule R61 gives the host no guarantee, is the model's choice (notes/assumptions/10). -/
  | hostStore (addr : Nat) (v : Byte)
deriving DecidableEq, Repr, Inhabited

/-- The implementation's parameters (rule R7, all OPEN). -/
opaque Config.params : Params

/-- The configuration the link is attached with (rules R40, R322, D48). -/
opaque Config.linkConfig : LinkConfig

/-- The link index (rule R18). -/
opaque Config.linkIndex : Nat

/-- One less than `N_CALLERS` (rule R7). -/
opaque Config.otherCallers : Nat

/-- The value of `S.now` at attach: "unspecified natural number" (rule R45, I22). -/
opaque Config.nowAtAttach : Nat

/-- FREE VALUE: the turn taken when `State.turns` names none, at each draw (rule R70). -/
opaque Config.freeTurn : Nat → Turn

/-- FREE VALUE: the environment's answer when `State.answers` names none, at each draw (rule R64). -/
opaque Config.freeAnswer : Nat → Nat

end Sys2Proof
end

