-- ==== Sys2Proof/WellFormed.lean ====
section
/-! DEFINITION. Which decoded requests rule R298 lets be accepted, given the implementation's parameters. -/

namespace Sys2Proof

/-- A request whose operands the spec gives a meaning (rules R186, R219): a long-form WRITE fits the payload FIFO and its
buffer holds `len` bytes; the buffer of a READ holds `cap` bytes. Every field has its width by type. -/
def Instr.wellFormed (p : Params) : Instr → Bool
  | .write ty _ _ len buf =>
    (decide (len.toNat ≤ p.plCapacity) && decide (len.toNat ≤ bufLength buf))
      || decide (p.classify ty ≠ .longWrite)
  | .read _ _ _ cap buf => decide (cap.toNat ≤ bufLength buf)
  | .enable | .disable | .enterLp | .exitLp | .doze | .dozeSuspend => true
  | .reserved6 _ _ | .reserved7 _ _ | .reservedA _ _ | .reservedB _ _ => true
  | .reservedC _ _ | .reservedD _ _ | .reservedE _ _ | .reservedF _ _ => true

end Sys2Proof
end

