-- ==== Sys2Proof/Decode.lean ====
section
/-! DEFINITION. From a request descriptor to an operation (rules R91, R92, R93, R96) and back. Total: a descriptor with a
nonzero field that must be zero is rejected by that field's name. -/

namespace Sys2Proof

/-- The field that must be zero and is not (rule R93). -/
inductive DecodeError where
  | rsv0 | typeField | d0Field | d1Field | lenField | capField
deriving DecidableEq, Repr

/-- `OP`, REQ0[3:0]. -/
def Request.op (r : Request) : BitVec 4 := r.req0.extractLsb' 0 4
/-- `RSV0`, REQ0[7:4]. -/
def Request.rsv0 (r : Request) : BitVec 4 := r.req0.extractLsb' 4 4
/-- `TYPE`, REQ0[15:8]. -/
def Request.ty (r : Request) : Byte := r.req0.extractLsb' 8 8
/-- `D0`, REQ0[23:16]. -/
def Request.d0 (r : Request) : Byte := r.req0.extractLsb' 16 8
/-- `D1`, REQ0[31:24]. -/
def Request.d1 (r : Request) : Byte := r.req0.extractLsb' 24 8
/-- `LEN`, REQ1[15:0]. -/
def Request.len (r : Request) : Half := r.req1.extractLsb' 0 16
/-- `CAP`, REQ1[31:16]. -/
def Request.cap (r : Request) : Half := r.req1.extractLsb' 16 16
/-- The bits of REQ0 above `OP`. -/
def Request.rest (r : Request) : BitVec 28 := r.req0.extractLsb' 4 28

/-- An operation without operands: every field but `OP` is zero (rule R91), or the first one that is not is named. -/
def decodePlain (r : Request) (i : Instr) : Except DecodeError Instr :=
  if r.rsv0 ≠ 0 then .error .rsv0
  else if r.ty ≠ 0 then .error .typeField
  else if r.d0 ≠ 0 then .error .d0Field
  else if r.d1 ≠ 0 then .error .d1Field
  else if r.len ≠ 0 then .error .lenField
  else if r.cap ≠ 0 then .error .capField
  else .ok i

/-- WRITE uses `TYPE`, `D0`, `D1`, `LEN` (rule R91); `CAP` and `RSV0` must be zero. Which of `D0`, `D1`, `LEN` counts is
the packet class's affair, and the others are ignored (rules R97, R186; notes/assumptions/18). -/
def decodeWrite (r : Request) : Except DecodeError Instr :=
  if r.rsv0 ≠ 0 then .error .rsv0
  else if r.cap ≠ 0 then .error .capField
  else .ok (.write r.ty r.d0 r.d1 r.len r.buf)

/-- READ uses `TYPE`, `D0`, `LEN`, `CAP`; `D1` and `RSV0` must be zero (rules R91, R219). -/
def decodeRead (r : Request) : Except DecodeError Instr :=
  if r.rsv0 ≠ 0 then .error .rsv0
  else if r.d1 ≠ 0 then .error .d1Field
  else .ok (.read r.ty r.d0 r.len r.cap r.buf)

/-- The operation of a descriptor: `OP` alone selects it (rules R92, R93, R112, R119). The codes 0x4 and 0x5 are read as where
DOZE and DOZE_SUSPEND exist; `decodeRequest` is what an implementation reads. -/
def decode (r : Request) : Except DecodeError Instr :=
  match r.op.toNat with
  | 0x0 => decodePlain r .enable
  | 0x1 => decodePlain r .disable
  | 0x2 => decodePlain r .enterLp
  | 0x3 => decodePlain r .exitLp
  | 0x4 => decodePlain r .doze
  | 0x5 => decodePlain r .dozeSuspend
  | 0x6 => .ok (.reserved6 r.rest r.req1)
  | 0x7 => .ok (.reserved7 r.rest r.req1)
  | 0x8 => decodeWrite r
  | 0x9 => decodeRead r
  | 0xA => .ok (.reservedA r.rest r.req1)
  | 0xB => .ok (.reservedB r.rest r.req1)
  | 0xC => .ok (.reservedC r.rest r.req1)
  | 0xD => .ok (.reservedD r.rest r.req1)
  | 0xE => .ok (.reservedE r.rest r.req1)
  | _ => .ok (.reservedF r.rest r.req1)

/-- What an implementation reads from a descriptor. Without the capability the codes 0x4 and 0x5 are reserved, and a reserved
code is "defined, not refused" (I11) and answered `Unsupported` whatever its other bits are (rules R93, R157, R298;
notes/assumptions/16): the meanings of DOZE and DOZE_SUSPEND give that answer. -/
def decodeRequest (p : Params) (r : Request) : Except DecodeError Instr :=
  match decode r with
  | .ok i => .ok i
  | .error e =>
    match r.op.toNat, p.hasDoze with
    | 0x4, false => .ok .doze
    | 0x5, false => .ok .dozeSuspend
    | _, _ => .error e

/-- The operation code of rule R92, and the code itself of a reserved request (rule R93). -/
def Instr.opcode : Instr → BitVec 4
  | .enable => 0x0
  | .disable => 0x1
  | .enterLp => 0x2
  | .exitLp => 0x3
  | .doze => 0x4
  | .dozeSuspend => 0x5
  | .reserved6 _ _ => 0x6
  | .reserved7 _ _ => 0x7
  | .write .. => 0x8
  | .read .. => 0x9
  | .reservedA _ _ => 0xA
  | .reservedB _ _ => 0xB
  | .reservedC _ _ => 0xC
  | .reservedD _ _ => 0xD
  | .reservedE _ _ => 0xE
  | .reservedF _ _ => 0xF

/-- A descriptor of an operation without operands. -/
def encodePlain (op : BitVec 4) : Request := ⟨(0 : BitVec 28) ++ op, 0, none⟩

/-- A descriptor with a reserved operation code and the given other bits. -/
def encodeReserved (op : BitVec 4) (rest : BitVec 28) (req1 : Word) : Request := ⟨rest ++ op, req1, none⟩

/-- The descriptor of an operation (rules R91, R92, R111). -/
def encode : Instr → Request
  | .enable => encodePlain 0x0
  | .disable => encodePlain 0x1
  | .enterLp => encodePlain 0x2
  | .exitLp => encodePlain 0x3
  | .doze => encodePlain 0x4
  | .dozeSuspend => encodePlain 0x5
  | .write ty d0 d1 len buf => ⟨d1 ++ d0 ++ ty ++ (0x08 : Byte), (0 : Half) ++ len, buf⟩
  | .read ty addr maxLen cap buf => ⟨(0 : Byte) ++ addr ++ ty ++ (0x09 : Byte), cap ++ maxLen, buf⟩
  | .reserved6 rest req1 => encodeReserved 0x6 rest req1
  | .reserved7 rest req1 => encodeReserved 0x7 rest req1
  | .reservedA rest req1 => encodeReserved 0xA rest req1
  | .reservedB rest req1 => encodeReserved 0xB rest req1
  | .reservedC rest req1 => encodeReserved 0xC rest req1
  | .reservedD rest req1 => encodeReserved 0xD rest req1
  | .reservedE rest req1 => encodeReserved 0xE rest req1
  | .reservedF rest req1 => encodeReserved 0xF rest req1

/-- The descriptor whose first word is bits 31..0 of `w` and whose second word is bits 63..32, every bit from `nbits` up
zero, with no buffer: how spec/opcode_table.json numbers a request's bits. -/
def tableRequest (nbits w : Nat) : Request :=
  ⟨BitVec.ofNat 32 (w % 2 ^ nbits), BitVec.ofNat 32 (w % 2 ^ nbits / 2 ^ 32), none⟩

/-- What the decoder reads from a request whose bits are `w`; none where it rejects them. -/
def decodeTableWord (nbits w : Nat) : Option Instr :=
  match decode (tableRequest nbits w) with
  | .ok i => some i
  | .error _ => none

end Sys2Proof
end

