-- ==== Sys2Proof/Machine/State.lean ====
section
/-! DEFINITION. The state of one link controller core (rules R20 to R45), as plain data: the shared record, the agents with
their operand latches and step labels, the caller buffers, the parameters, and the model's own record of what moves next and
what the environment answers. -/

namespace Sys2Proof.Machine

/-- The six link states (rule R24). -/
inductive LinkState where
  | init | on | doze | ulps | dozeSuspend | off
deriving DecidableEq, Repr, Inhabited

/-- Why the machine stops with a fault: a model verdict, never an LCC behaviour (rule R296). -/
inductive Fault where
  /-- A register primitive or a dump was called while the power domain is inactive (rule R296). Raised by every `Reg` call
  and `Dump`; reachable in READ alone (rules R220, R224). Safe: the spec gives such a step no next state. -/
  | noPower
deriving DecidableEq, Repr

/-- Why a request is given no meaning (rule R298). -/
inductive Refusal where
  /-- An instruction with no meaning yet. Raised by an arm of `exec` alone. Safe. -/
  | notModelled (mnemonic : String)
  /-- A field that must be zero is not (rules R93, R219, R298). Raised by the turn of the agent that would accept the
  request. Safe: "the spec gives it no meaning". -/
  | malformed (e : DecodeError)
  /-- A long-form WRITE with more bytes than the payload FIFO holds (rules R79, R186). Raised when it is accepted. Safe:
  the model "gives such a request no meaning". -/
  | payloadTooLong
  /-- A long-form WRITE whose buffer holds fewer than `len` bytes (rule R186). Raised when it is accepted. Safe. -/
  | payloadShort
  /-- A READ whose buffer holds fewer than `cap` bytes (rule R219). Raised when it is accepted. Safe. -/
  | outShort
  /-- A request from an agent that has an operation in flight and is not inside a panel callback (rule R298). Raised when
  the request is presented, and by `exec` of an operation that is not the one in flight. Safe. -/
  | inFlight
deriving DecidableEq, Repr

/-- The code of an acknowledge and error report: opaque (rules R7, R107, R284). A number that means nothing but itself
(DESIGN CHOICE, notes/assumptions/7). -/
structure ErrorCode where
  tag : Nat
deriving DecidableEq, Repr, Inhabited

/-- What an operation returns (rule R11). -/
inductive Result where
  | ok
  | okCount (n : BitVec 17)
  | notReady
  | timeout
  | protocolError (e : Option ErrorCode)
  | busy
  | invalidState
  | unsupported
deriving DecidableEq, Repr, Inhabited

/-- The answer of `LinkTimingInit` (rule R139). -/
inductive InitAnswer where
  | ok | alreadyRunning
deriving DecidableEq, Repr, Inhabited

/-- The answer of `EnterRetention` (rule R150). -/
inductive RetAnswer where
  | ok | fail
deriving DecidableEq, Repr, Inhabited

/-- How a timed wait ended (rule R236). -/
inductive WaitResult where
  | signaled | timedOut
deriving DecidableEq, Repr, Inhabited

/-- The hardware action alphabet of rule R131, each with its argument and answer. -/
inductive Action where
  | clkDomainResume | clkDomainSuspend
  | phyRouteCfg | phyIsoRelease | phyPowerOff
  | dphyResetAssert | dphyResetRelease
  | linkSwReset
  | clkDividersProgram (cfg : LinkConfig)
  | dataLanesEnable (cfg : LinkConfig)
  | linkClkSrcSwitch | escClkOnLaneEnable | wordClkEnable
  | linkTimingInit (cfg : LinkConfig) (answer : InitAnswer)
  | linkStart | linkStop
  | enterRetention (answer : RetAnswer)
  | exitRetention
  | irqLineEnable | irqLineDisable
deriving DecidableEq, Repr

/-- The panel callbacks of rule R299. -/
inductive PanelCb where
  | powerOn | powerOff | reset | probe | sleepOut | displayOn | doze | dozeSuspend | suspend | dump | notify
  | setErrorCallback
deriving DecidableEq, Repr

/-- The seven occasions of a diagnostic dump (rules R109, R290). -/
inductive DumpCause where
  | writeTimeout | watchdogStuck | rxAckErr | rxBadTag | rxDrainExhausted | rxEccError | retentionFail
deriving DecidableEq, Repr

/-- One event of the history (rules R14, R39): one call of a collaborator, with arguments and answer. The first eleven
constructors are the primitives of rules R62 and R63. -/
inductive Event where
  | writeHeader (id data0 data1 : Byte) (isRead : Bool)
  | writePayload (w : Word)
  | readRxFifo (answer : Word)
  | headerFifoEmpty (answer : Bool)
  | fifoWritable (answer : Bool)
  | rxFifoEmpty (answer : Bool)
  | clearInterrupt (mask : Word)
  /-- Listed in rule R62 and called by no rule (D46). -/
  | setInterruptMask (mask : Word)
  | decodeRxError (w : Word) (answer : ErrorCode)
  | pllStable (answer : Bool)
  | readInterruptPending (answer : Word)
  | act (a : Action)
  | panel (cb : PanelCb)
  | blockLowPowerExit
  | unblockLowPowerExit
  | vsyncWake (ts : Nat)
  | dump (cause : DumpCause)
deriving DecidableEq, Repr

/-- The command lock (rule R29): free, or held by one caller agent. -/
inductive Lock where
  | free
  | held (agent : Nat)
deriving DecidableEq, Repr

/-- A single-shot completion signal (rules R30, R232). -/
structure Signal where
  done : Bool
deriving DecidableEq, Repr

/-- The software watchdog (rules R32, R240). -/
structure Watchdog where
  armed    : Bool
  deadline : Nat
deriving DecidableEq, Repr

/-- What every operation in flight holds: its step label (rule R23) and the result latch `res` (rule R22). -/
structure Ctl (L : Type) where
  label : L
  res   : Result
deriving DecidableEq, Repr

/-- Step labels of `bring_up` (rule R133). -/
inductive BuLabel where
  | bu0 | bu1 | bu2 | bu3 | bu4 | bu4a | bu4b | bu5 | bu6 | bu7 | bu8 | bu9 | bu10 | bu11 | bu12 | bu13 | bu14 | bu15
  | bu16 | bu17 | bu18 | bu19 | bu20 | bu24 | bu25 | bu26 | bu27 | bu28 | bu29
deriving DecidableEq, Repr

/-- Step labels of `tear_down` (rule R144). -/
inductive TdLabel where
  | td0 | td1 | td2 | td3 | td3a | td3b | td3c | td4 | td5 | td6 | td7 | td8 | td9 | td10 | td11 | td12
deriving DecidableEq, Repr

/-- Step labels of ENTER_LP (rule R149). -/
inductive ElLabel where
  | el1 | el2 | el3 | el4 | el5 | el6 | el7 | el7a | el8 | el9 | el10 | el11
deriving DecidableEq, Repr

/-- Step labels of EXIT_LP (rule R153). -/
inductive XlLabel where
  | xl1 | xl2 | xl3 | xl4 | xl5 | xl6 | xl7 | xl8 | xl9 | xl10 | xl11 | xl12 | xl13 | xl14 | xl15 | xl16 | xl17 | xl18
  | xl19 | xl20
deriving DecidableEq, Repr

/-- Step labels of WRITE (rule R170). -/
inductive WLabel where
  | w0 | w1 | w2 | w3 | w4 | w5 | w6 | w7 | w7s | w7r | w7l | w7h | w7u | w8 | w8a | w9 | w9a | w10 | w10a | w10b | w10c
  | w10d | w11 | w12 | w13
deriving DecidableEq, Repr

/-- Step labels of READ (rule R200); `r10t2` is the second append of the line `R.10t`. -/
inductive RLabel where
  | r0 | r1 | r2 | r3 | r4 | r5 | r6 | r6a | r7 | r8 | r9 | r10 | r10a | r10b | r10c | r10e | r10s | r10t | r10t2 | r10l
  | r10m | r10n | r10p | r10o | r10q | r15 | r16 | r16a | r17 | r18 | r19 | r20
deriving DecidableEq, Repr

/-- The latches of a bring-up in flight (rule R22). `cb` is true while its agent is inside a panel callback it has invoked
and not yet gone on from (rule R301, notes/assumptions/22). -/
structure BuFrame where
  ctl     : Ctl BuLabel
  target  : LinkState
  prev    : LinkState
  handoff : Bool
  initRes : InitAnswer
  cb      : Bool
deriving DecidableEq, Repr

/-- The latches of a teardown in flight (rule R22); `cb` as in `BuFrame`. -/
structure TdFrame where
  ctl    : Ctl TdLabel
  target : LinkState
  prev   : LinkState
  cb     : Bool
deriving DecidableEq, Repr

/-- The latches of an ENTER_LP in flight (rule R22). -/
structure ElFrame where
  ctl    : Ctl ElLabel
  retRes : RetAnswer
deriving DecidableEq, Repr

/-- The latches of an EXIT_LP in flight (rule R22). -/
structure XlFrame where
  ctl     : Ctl XlLabel
  initRes : InitAnswer
deriving DecidableEq, Repr

/-- The latches of a WRITE in flight (rule R22): operands, locals, the loop counter `k` of `W.7l` and the time `t0` at
which the wait was reached (rule R236). -/
structure WriteFrame where
  ctl      : Ctl WLabel
  ty       : Byte
  d0       : Byte
  d1       : Byte
  len      : Half
  payload  : Option BufHandle
  cls      : PacketClass
  cmd      : Option Byte
  mustWait : Bool
  wres     : WaitResult
  e        : Bool
  k        : Nat
  t0       : Nat
deriving DecidableEq, Repr

/-- The latches of a READ in flight (rule R22): operands, locals, the loop counters `j` and `b` of `R.10m` and `R.10p`, the
time `t0` at which the wait was reached, and the nested WRITE that runs while the label stays at the call step (rule R23). -/
structure ReadFrame where
  ctl  : Ctl RLabel
  ty   : Byte
  d0   : Byte
  len  : Half
  cap  : Half
  out  : Option BufHandle
  wres : WaitResult
  n    : BitVec 17
  iter : Nat
  w    : Word
  v    : Word
  cnt  : Half
  err  : ErrorCode
  j    : Nat
  b    : Nat
  t0   : Nat
  sub  : Option WriteFrame
deriving DecidableEq, Repr

/-- An operation in flight: which operation it is (the latch `op`) and its latches. -/
inductive Frame where
  | enable (f : BuFrame)
  | disable (f : TdFrame)
  | enterLp (f : ElFrame)
  | exitLp (f : XlFrame)
  | doze (f : BuFrame)
  | dozeSuspend (f : TdFrame)
  | write (f : WriteFrame)
  | read (f : ReadFrame)
deriving DecidableEq, Repr

/-- A caller agent. -/
structure Caller where
  /-- A request presented and not yet accepted (rule R90). -/
  port  : Option Request
  /-- The result last returned (rules R11, R95); none before the first. -/
  ret   : Option Result
  /-- The operation in flight, and under it the one whose panel callback issued it, and so on; empty when `Idle`. -/
  stack : List Frame
deriving DecidableEq, Repr

/-- A caller agent at `Idle` with nothing presented. -/
def Caller.idle : Caller := ⟨none, none, []⟩

/-- Step labels of the handler run (rule R260); `idle` is `Idle`. -/
inductive HLabel where
  | idle | h1 | h2 | h3 | h4 | h5 | h6 | h7 | h7a | h8 | h9
deriving DecidableEq, Repr

/-- The interrupt agent: its label and the latched pending mask `p` (rules R22, R263). -/
structure IrqAgent where
  label : HLabel
  p     : Word
deriving DecidableEq, Repr

/-- The watchdog agent: its latch `e` (rules R22, R244). It has no label but `Idle` (rule R23). -/
structure WdtAgent where
  e : Bool
deriving DecidableEq, Repr

/-- The state of one LCC instance (rule R20) and of its agents. -/
structure State where
  /-- S0, `S.state`. -/
  link        : LinkState
  /-- S1, `S.lock`. -/
  lock        : Lock
  /-- S2, `S.sig_ph`. -/
  sigPh       : Signal
  /-- S3, `S.sig_rd`. -/
  sigRd       : Signal
  /-- S4, `S.wd`. -/
  wd          : Watchdog
  /-- S5, `S.underrun_cnt`. -/
  underrun    : BitVec 32
  /-- S6, `S.cfg`. -/
  cfg         : LinkConfig
  /-- S7, `S.link_index`. -/
  linkIndex   : Nat
  /-- S8, `S.irq_enabled`. -/
  irqEnabled  : Bool
  /-- S9, `S.pd_active`. -/
  pdActive    : Bool
  /-- S10, `S.phy_on`. -/
  phyOn       : Bool
  /-- S11, `S.irq_busy`. -/
  irqBusy     : Bool
  /-- S12, `S.now`. -/
  now         : Nat
  /-- S13, `S.hist`, oldest event first. -/
  hist        : List Event
  /-- S14, `S.fault`. -/
  fault       : Option Fault
  /-- The caller agents `T_1 .. T_N_CALLERS` (rule R13); agent `a` is the one at index `a`. -/
  callers     : List Caller
  /-- The interrupt agent. -/
  irq         : IrqAgent
  /-- The watchdog agent. -/
  wdt         : WdtAgent
  /-- The bytes of the caller buffers (rule R61), canonical. -/
  mem         : List Host.Cell
  /-- The implementation's parameters (rule R7); no step writes them. -/
  par         : Params
  /-- MODEL'S OWN: the turns to be taken next; when empty they are drawn (notes/assumptions/2). -/
  turns       : List Turn
  /-- MODEL'S OWN: how many turns have been drawn. -/
  turnDraws   : Nat
  /-- MODEL'S OWN: the environment's next answers; when empty they are drawn (notes/assumptions/3). -/
  answers     : List Nat
  /-- MODEL'S OWN: how many answers have been drawn. -/
  answerDraws : Nat
  /-- MODEL'S OWN: the caller agent that has the turn. -/
  cur         : Nat
  /-- MODEL'S OWN: how many micro-steps beyond the first the agent takes in this turn (notes/assumptions/4). -/
  quantum     : Nat
deriving DecidableEq, Repr

/-- The machine right after attach (rules R45, R320, R321). -/
def State.reset : State where
  link := .init
  lock := .free
  sigPh := ⟨false⟩
  sigRd := ⟨false⟩
  wd := ⟨false, 0⟩
  underrun := 0
  cfg := Config.linkConfig
  linkIndex := Config.linkIndex
  irqEnabled := false
  pdActive := false
  phyOn := false
  irqBusy := false
  now := Config.nowAtAttach
  hist := []
  fault := none
  callers := Caller.idle :: List.replicate Config.otherCallers Caller.idle
  irq := ⟨.idle, 0⟩
  wdt := ⟨false⟩
  mem := []
  par := Config.params
  turns := []
  turnDraws := 0
  answers := []
  answerDraws := 0
  cur := 0
  quantum := 0

/-- How one micro-step of an agent ends: it is not enabled and nothing happens; it is the fault of rule R296; the operation
goes on with these latches; or it returns this result. -/
inductive Micro (F : Type) where
  | blocked
  | fault (r : Fault)
  | cont (f : F) (s : State)
  | ret (r : Result) (s : State)

end Sys2Proof.Machine
end

