-- ==== Sys2Proof/Machine/Ops.lean ====
section
/-! DEFINITION. The named operations over the state: updates, caller-buffer memory, the event history, the environment's
answers, the Register Interface and its power rule, panel and display-controller calls, the command lock, the timed wait,
raising an error and delivering a result. -/

namespace Sys2Proof.Machine

/-! ## Updates of one field -/

/-- Appends one event to the history (rule R39). -/
def State.record (s : State) (e : Event) : State := { s with hist := s.hist ++ [e] }
/-- Writes `S.state`. -/
def State.setLink (s : State) (v : LinkState) : State := { s with link := v }
/-- Writes `S.lock`. -/
def State.setLock (s : State) (v : Lock) : State := { s with lock := v }
/-- Writes `S.sig_ph`. -/
def State.setSigPh (s : State) (v : Signal) : State := { s with sigPh := v }
/-- Writes `S.sig_rd`. -/
def State.setSigRd (s : State) (v : Signal) : State := { s with sigRd := v }
/-- Writes `S.wd`. -/
def State.setWd (s : State) (v : Watchdog) : State := { s with wd := v }
/-- Writes `S.underrun_cnt`. -/
def State.setUnderrun (s : State) (v : BitVec 32) : State := { s with underrun := v }
/-- Writes `S.irq_enabled`. -/
def State.setIrqEnabled (s : State) (v : Bool) : State := { s with irqEnabled := v }
/-- Writes `S.pd_active`. -/
def State.setPdActive (s : State) (v : Bool) : State := { s with pdActive := v }
/-- Writes `S.phy_on`. -/
def State.setPhyOn (s : State) (v : Bool) : State := { s with phyOn := v }
/-- Writes `S.irq_busy`. -/
def State.setIrqBusy (s : State) (v : Bool) : State := { s with irqBusy := v }
/-- Writes `S.now`. -/
def State.setNow (s : State) (v : Nat) : State := { s with now := v }
/-- Writes the caller agents. -/
def State.setCallers (s : State) (v : List Caller) : State := { s with callers := v }
/-- Writes the interrupt agent. -/
def State.setIrq (s : State) (v : IrqAgent) : State := { s with irq := v }
/-- Writes the watchdog agent. -/
def State.setWdt (s : State) (v : WdtAgent) : State := { s with wdt := v }
/-- Writes the caller-buffer memory. -/
def State.setMem (s : State) (v : List Host.Cell) : State := { s with mem := v }
/-- Writes what is left of the environment's answers and how many were drawn. -/
def State.setAnswers (s : State) (l : List Nat) (n : Nat) : State := { s with answers := l, answerDraws := n }
/-- Writes what is left of the turns and how many were drawn. -/
def State.setTurns (s : State) (l : List Turn) (n : Nat) : State := { s with turns := l, turnDraws := n }
/-- Gives the turn to caller `a` for `more + 1` micro-steps. -/
def State.focus (s : State) (a more : Nat) : State := { s with cur := a, quantum := more }

/-! ## Caller-buffer memory (rules R60, R61, R68) -/

/-- What a byte that nothing has written reads as (DESIGN CHOICE, notes/assumptions/9). -/
def Memory.unlisted : Byte := 0

/-- The canonical form: addresses strictly rising and no entry equal to what an unlisted address reads as. -/
def Memory.wf : List Host.Cell → Bool
  | [] => true
  | (_, v) :: [] => decide (v ≠ Memory.unlisted)
  | (a, v) :: (b, w) :: t => decide (v ≠ Memory.unlisted) && decide (a < b) && Memory.wf ((b, w) :: t)

/-- The byte at an address. -/
def Memory.read : List Host.Cell → Nat → Byte
  | [], _ => Memory.unlisted
  | (b, w) :: t, a => if a = b then w else Memory.read t a

/-- A byte put in front of cells that all lie higher; nothing where it is what an unlisted address reads as. -/
def Memory.consCell (a : Nat) (v : Byte) (t : List Host.Cell) : List Host.Cell :=
  if v = Memory.unlisted then t else (a, v) :: t

/-- Writes one byte and keeps the canonical form. -/
def Memory.write : List Host.Cell → Nat → Byte → List Host.Cell
  | [], a, v => Memory.consCell a v []
  | (b, w) :: t, a, v =>
    if a < b then Memory.consCell a v ((b, w) :: t)
    else if a = b then Memory.consCell a v t
    else (b, w) :: Memory.write t a v

/-- Where byte `i` of a buffer lies (notes/assumptions/9). -/
def bufAddr (buf : Option BufHandle) (i : Nat) : Nat :=
  match buf with
  | none => i
  | some h => h.base + i

/-- `MemRead(buf, i, 1)` (rule R10). -/
def State.memRead (s : State) (buf : Option BufHandle) (i : Nat) : Byte := Memory.read s.mem (bufAddr buf i)

/-- `MemWrite(buf, i, 1, v)` (rule R10). -/
def State.memWrite (s : State) (buf : Option BufHandle) (i : Nat) (v : Byte) : State :=
  s.setMem (Memory.write s.mem (bufAddr buf i) v)

/-! ## The environment's answers (rule R64) -/

/-- The environment's next answer: the first of `answers`, or a free value. -/
def State.answer (s : State) : Nat :=
  match s.answers with
  | [] => Config.freeAnswer s.answerDraws
  | n :: _ => n

/-- The state once that answer has been given. -/
def State.answered (s : State) : State :=
  match s.answers with
  | [] => s.setAnswers [] (s.answerDraws + 1)
  | _ :: rest => s.setAnswers rest s.answerDraws

/-- An answer read as a Bool. -/
def asBool (n : Nat) : Bool := n % 2 == 1
/-- An answer read as a 32-bit word. -/
def asWord (n : Nat) : Word := BitVec.ofNat 32 n
/-- An answer read as an error code. -/
def asErrorCode (n : Nat) : ErrorCode := ⟨n⟩
/-- An answer read as that of `LinkTimingInit`. -/
def asInit (n : Nat) : InitAnswer := if asBool n then .alreadyRunning else .ok
/-- An answer read as that of `EnterRetention`. -/
def asRet (n : Nat) : RetAnswer := if asBool n then .fail else .ok

/-! ## Collaborator calls -/

/-- A register primitive without answer: one event, or the fault of rule R296 when the power domain is inactive. -/
def reg {F : Type} (s : State) (e : Event) (k : State → Micro F) : Micro F :=
  if s.pdActive then k (s.record e) else .fault .noPower

/-- A register primitive with an answer: the fault of rule R296, or the answer of the environment (rule R64), one event that
holds it, and the step that goes on with it. -/
def regAsk {F α : Type} (s : State) (read : Nat → α) (e : α → Event) (k : α → State → Micro F) : Micro F :=
  if s.pdActive then k (read s.answer) (s.answered.record (e (read s.answer))) else .fault .noPower

/-- `Dump(cause)`: one event and nothing else (rule R290), under the power rule R296. -/
def dump {F : Type} (s : State) (c : DumpCause) (k : State → Micro F) : Micro F := reg s (.dump c) k

/-- The effect of an action on the LCC's own flags (rule R131). -/
def Action.effect (a : Action) (s : State) : State :=
  match a with
  | .clkDomainResume => s.setPdActive true
  | .clkDomainSuspend => s.setPdActive false
  | .phyIsoRelease => s.setPhyOn true
  | .phyPowerOff => s.setPhyOn false
  | .irqLineEnable => s.setIrqEnabled true
  | .irqLineDisable => s.setIrqEnabled false
  | _ => s

/-- `Act(A)` (rule R131): one event and the action's effect on the flags; not subject to rule R296. -/
def State.act (s : State) (a : Action) : State := a.effect (s.record (.act a))

/-- `Act(A) -> answer` (rule R131): the environment's answer, held in the event. -/
def State.actAsk {α : Type} (s : State) (read : Nat → α) (a : α → Action) : α × State :=
  (read s.answer, s.answered.act (a (read s.answer)))

/-- `Panel.cb()`: one event (rule R299). -/
def State.panel (s : State) (cb : PanelCb) : State := s.record (.panel cb)

/-! ## The command lock (rule R71) -/

/-- `lock()` by agent `a`: not enabled unless the lock is free. -/
def lockThen {F : Type} (a : Nat) (s : State) (k : State → Micro F) : Micro F :=
  if s.lock = .free then k (s.setLock (.held a)) else .blocked

/-- The micro-step `m` of an operation of agent `a`. If it would end the operation while that agent itself holds the lock, which
it does only inside a panel callback, it is not enabled: the agent "waits for ever on its own lock" (rules R297, R301, R336;
notes/assumptions/22). -/
def unlessStuck {F : Type} (a : Nat) (s : State) (ends : Bool) (m : Micro F) : Micro F :=
  if ends = true ∧ s.lock = .held a then .blocked else m

/-- `unlock()` by agent `a`, the holder; without effect for an agent that is not (notes/assumptions/33). -/
def State.unlock (s : State) (a : Nat) : State := if s.lock = .held a then s.setLock .free else s

/-! ## The timed wait (rules R236, R237) -/

/-- `wait(sig, T)` reached at `t0`: not enabled while the flag is false and the time has not come; with both conditions true
the environment's answer says which outcome is taken. -/
def waitThen {F : Type} (s : State) (done : Bool) (t0 limit : Nat) (onSignal onTimeout : State → Micro F) : Micro F :=
  match done, decide (t0 + limit ≤ s.now) with
  | false, false => .blocked
  | true, false => onSignal s
  | false, true => onTimeout s
  | true, true => if asBool s.answer then onTimeout s.answered else onSignal s.answered

/-! ## Raising an error and returning a result (rule R288) -/

/-- Continue at a label (rule R23). -/
def Ctl.goto {L : Type} (c : Ctl L) (l : L) : Ctl L := { c with label := l }

/-- `x[res] <- r; pc <- exit`: the operation's result is set and control goes to its common exit. -/
def Ctl.finish {L : Type} (_c : Ctl L) (r : Result) (exit : L) : Ctl L := ⟨exit, r⟩

/-- `raise E` (rule R288), this hardware's exception entry: the result is set to the error, control goes to the operation's
common exit, nothing is saved and nothing rolled back. -/
def Ctl.raise {L : Type} (c : Ctl L) (e : Result) (exit : L) : Ctl L := c.finish e exit

/-- Caller agent `a` with its record changed. -/
def State.modifyCaller (s : State) (a : Nat) (f : Caller → Caller) : State :=
  match s.callers[a]? with
  | none => s
  | some c => s.setCallers (s.callers.set a (f c))

/-- `return res` (rule R288), this hardware's return from an exception as from any operation: the operation leaves the agent,
and the result is delivered. -/
def State.deliver (s : State) (a : Nat) (r : Result) : State :=
  s.modifyCaller a fun c => { c with ret := some r, stack := c.stack.tail }

/-- The latches and label of the operation in flight of agent `a` after a micro-step. -/
def State.saveTop (s : State) (a : Nat) (f : Frame) : State :=
  s.modifyCaller a fun c => { c with stack := f :: c.stack.tail }

/-- A request is accepted (rules R22, R96): the port is emptied and the operation is in flight. -/
def State.accept (s : State) (a : Nat) (f : Frame) : State :=
  s.modifyCaller a fun c => { c with port := none, stack := f :: c.stack }

/-- A request is answered at acceptance with no operation in flight (rule R93). -/
def State.answerAtOnce (s : State) (a : Nat) (r : Result) : State :=
  s.modifyCaller a fun c => { c with port := none, ret := some r }

end Sys2Proof.Machine
end

