-- ==== Sys2Proof/Machine/Operands.lean ====
section
/-! DEFINITION. Every operand and packet form: the latches loaded at acceptance, the refusals of rule R298, the header and
payload words sent, the fields of a received word, and the numeric encodings of states, results, interrupt sources and dump
causes. -/

namespace Sys2Proof.Machine

/-! ## Transmit side (rules R97 to R102) -/

/-- `ceil(n/4)` (rule R113 a). -/
def wordsFor (n : Nat) : Nat := (n + 3) / 4

/-- `B(i)` of rule R102: byte `i` of the payload, or zero from `len` on. -/
def payloadByte (s : State) (buf : Option BufHandle) (len i : Nat) : Byte :=
  if i < len then s.memRead buf i else 0

/-- Four bytes as a word, the first in the least significant byte (rule R65). -/
def packWord (b0 b1 b2 b3 : Byte) : Word := b3 ++ b2 ++ b1 ++ b0

/-- Payload word `k` of a long write (rule R102). -/
def payloadWord (s : State) (buf : Option BufHandle) (len k : Nat) : Word :=
  packWord (payloadByte s buf len (4 * k)) (payloadByte s buf len (4 * k + 1))
    (payloadByte s buf len (4 * k + 2)) (payloadByte s buf len (4 * k + 3))

/-- The low byte of a half-word: `len[7:0]`. -/
def lowByte (h : Half) : Byte := h.extractLsb' 0 8
/-- The high byte of a half-word: `len[15:8]`. -/
def highByte (h : Half) : Byte := h.extractLsb' 8 8

/-! ## Receive side (rules R103, R104) -/

/-- Byte `j` of a word: `v[8j+7:8j]` (rules R66, R104). -/
def byteOf (v : Word) (j : Nat) : Byte := v.extractLsb' (8 * j) 8
/-- The tag of a first word: `w[7:0]`. -/
def rxTag (w : Word) : Byte := byteOf w 0
/-- The first data byte of a short response: `w[15:8]`. -/
def rxData0 (w : Word) : Byte := byteOf w 1
/-- The second data byte of a short response: `w[23:16]`. -/
def rxData1 (w : Word) : Byte := byteOf w 2
/-- The byte count of a long response: `w[23:8]`. -/
def rxCount (w : Word) : Half := w.extractLsb' 8 16

/-! ## Interrupt sources (rule R108) -/

/-- `IRQ_PH_FIFO_EMPTY` as a mask. -/
def irqPhFifoEmpty : Word := 1
/-- `IRQ_RX_DATA_DONE` as a mask. -/
def irqRxDataDone : Word := 2
/-- Bit `i` of a pending mask. -/
def pendingBit (p : Word) (i : Nat) : Bool := p.getLsbD i

/-! ## Numeric encodings (rules R94, R95, R109) -/

/-- The code of a link state (rule R94). -/
def LinkState.code : LinkState → BitVec 3
  | .init => 0
  | .on => 1
  | .doze => 2
  | .ulps => 3
  | .dozeSuspend => 4
  | .off => 5

/-- `STATUS` of a result (rule R95). -/
def Result.status : Result → BitVec 4
  | .ok | .okCount _ => 0
  | .notReady => 1
  | .timeout => 2
  | .protocolError _ => 3
  | .busy => 4
  | .invalidState => 5
  | .unsupported => 6

/-- `HAS_ERR` of a result: an error code accompanies it (rule R95). -/
def Result.hasErr : Result → Bool
  | .protocolError (some _) => true
  | _ => false

/-- `COUNT` of a result (rule R95). -/
def Result.count : Result → Half
  | .okCount n => n.setWidth 16
  | _ => 0

/-- The result word RES (rule R95). -/
def Result.word (r : Result) : Word :=
  r.count ++ ((0 : BitVec 7) ++ (BitVec.ofBool r.hasErr ++ ((0 : BitVec 4) ++ r.status)))

/-- The number of a dump cause (rule R109). -/
def DumpCause.code : DumpCause → Nat
  | .writeTimeout => 0
  | .watchdogStuck => 1
  | .rxAckErr => 2
  | .rxBadTag => 3
  | .rxDrainExhausted => 4
  | .rxEccError => 5
  | .retentionFail => 6

/-! ## Acceptance of a request (rules R22, R96, R298) -/

/-- Why a WRITE is refused, if it is (rule R186): only the long form has a payload. -/
def writeRefusal (p : Params) (ty : Byte) (len : Half) (buf : Option BufHandle) : Option Refusal :=
  if len.toNat ≤ p.plCapacity ∧ len.toNat ≤ bufLength buf then none
  else match p.classify ty with
    | .longWrite => some (if p.plCapacity < len.toNat then .payloadTooLong else .payloadShort)
    | _ => none

/-- Why a READ is refused, if it is (rule R219). -/
def readRefusal (cap : Half) (buf : Option BufHandle) : Option Refusal :=
  if cap.toNat ≤ bufLength buf then none else some .outShort

/-- The latches of a bring-up at acceptance; a latch not loaded here is written before it is read (rule R22). -/
def BuFrame.start : BuFrame :=
  { ctl := ⟨.bu0, .ok⟩, target := .init, prev := .init, handoff := false, initRes := .ok, cb := false }

/-- The latches of a teardown at acceptance. -/
def TdFrame.start : TdFrame := { ctl := ⟨.td0, .ok⟩, target := .init, prev := .init, cb := false }

/-- The latches of an ENTER_LP at acceptance. -/
def ElFrame.start : ElFrame := { ctl := ⟨.el1, .ok⟩, retRes := .ok }

/-- The latches of an EXIT_LP at acceptance. -/
def XlFrame.start : XlFrame := { ctl := ⟨.xl1, .ok⟩, initRes := .ok }

/-- The latches of a WRITE at acceptance, its operands loaded (rule R96). -/
def WriteFrame.start (ty d0 d1 : Byte) (len : Half) (buf : Option BufHandle) : WriteFrame :=
  { ctl := ⟨.w0, .ok⟩, ty := ty, d0 := d0, d1 := d1, len := len, payload := buf, cls := .unrecognized, cmd := none
    mustWait := false, wres := .signaled, e := false, k := 0, t0 := 0 }

/-- The latches of a READ at acceptance, its operands loaded (rule R96). -/
def ReadFrame.start (ty addr : Byte) (maxLen cap : Half) (buf : Option BufHandle) : ReadFrame :=
  { ctl := ⟨.r0, .ok⟩, ty := ty, d0 := addr, len := maxLen, cap := cap, out := buf, wres := .signaled, n := 0
    iter := 0, w := 0, v := 0, cnt := 0, err := ⟨0⟩, j := 0, b := 0, t0 := 0, sub := none }

/-- The latch `op` of an operation in flight (rules R22, R92). -/
def Frame.op : Frame → BitVec 4
  | .enable _ => 0x0
  | .disable _ => 0x1
  | .enterLp _ => 0x2
  | .exitLp _ => 0x3
  | .doze _ => 0x4
  | .dozeSuspend _ => 0x5
  | .write _ => 0x8
  | .read _ => 0x9

/-- The operation in flight with its operands: what was requested. -/
def Frame.instr : Frame → Instr
  | .enable _ => .enable
  | .disable _ => .disable
  | .enterLp _ => .enterLp
  | .exitLp _ => .exitLp
  | .doze _ => .doze
  | .dozeSuspend _ => .dozeSuspend
  | .write f => .write f.ty f.d0 f.d1 f.len f.payload
  | .read f => .read f.ty f.d0 f.len f.cap f.out

/-- The operation's agent is inside a panel callback that the operation has invoked (rule R301). -/
def Frame.inCallback : Frame → Bool
  | .enable f | .doze f => f.cb
  | .disable f | .dozeSuspend f => f.cb
  | .enterLp _ | .exitLp _ | .write _ | .read _ => false

end Sys2Proof.Machine
end

