-- ==== Sys2Proof/Machine/Flags.lean ====
section
/-! DEFINITION. Every flag computation of rule R44: the two completion signals, the watchdog, the under-run counter, and the
state classes the transitions test. -/

namespace Sys2Proof.Machine

/-! ## State classes (rule R27) -/

/-- `ON_CLASS`. -/
def LinkState.onClass : LinkState → Bool
  | .on | .doze => true
  | .init | .ulps | .dozeSuspend | .off => false

/-- `OFF_CLASS`. -/
def LinkState.offClass : LinkState → Bool
  | .ulps | .dozeSuspend | .off => true
  | .init | .on | .doze => false

/-! ## Single-shot signals (rules R233, R234) -/

/-- `reset` of the header-empty signal, and its consumption by a wait. -/
def State.resetPh (s : State) : State := s.setSigPh ⟨false⟩
/-- `fire` of the header-empty signal. -/
def State.firePh (s : State) : State := s.setSigPh ⟨true⟩
/-- `reset` of the read-ready signal, and its consumption by a wait. -/
def State.resetRd (s : State) : State := s.setSigRd ⟨false⟩
/-- `fire` of the read-ready signal. -/
def State.fireRd (s : State) : State := s.setSigRd ⟨true⟩

/-! ## Software watchdog (rules R241 to R243) -/

/-- Arm: a deadline `WR_TIMEOUT` ticks away, replacing an earlier one (rule R241). -/
def State.armWd (s : State) : State := s.setWd ⟨true, s.now + s.par.wrTimeout.val⟩
/-- Disarm: the deadline is left as it is (rule R242). -/
def State.disarmWd (s : State) : State := s.setWd { s.wd with armed := false }
/-- The expiry condition (rule R243). -/
def State.wdDue (s : State) : Bool := s.wd.armed && decide (s.wd.deadline ≤ s.now)

/-! ## Under-run counter (rule R268) -/

/-- One more under-run, modulo 2^32. -/
def State.countUnderrun (s : State) : State := s.setUnderrun (s.underrun + 1)

end Sys2Proof.Machine
end

