-- ==== Sys2Proof/Machine/Conduct.lean ====
section
/-! DEFINITION. How a caller agent carries out a requested operation: it accepts the request at `Idle` or inside a panel
callback, and then takes the operation's micro-steps, as many in a row as the turn gives it (rules R22, R23, R70, R298). -/

namespace Sys2Proof.Machine

/-- The agent is at rest for its host: `Idle`, or inside a panel callback, so that a request may be presented to it (rules
R23, R298, R301). -/
def Caller.atRest (c : Caller) : Bool :=
  match c.stack with
  | [] => true
  | f :: _ => f.inCallback

/-- The agent accepts a request next: it is `Idle`, or it is inside a panel callback and a request stands at its port (rules
R23, R301). -/
def Caller.accepts (c : Caller) : Bool :=
  match c.stack with
  | [] => true
  | f :: _ => f.inCallback && c.port.isSome

/-- Up to `more` micro-steps of one operation of agent `a`, in a row; fewer if one blocks, faults or returns. Between two
turns any other agent may move, and the number in each turn is a free value, so no interleaving of rule R70 is lost
(notes/assumptions/4). -/
def burst {F : Type} (a : Nat) (wrap : F → Frame) (micro : Nat → F → State → Micro F) :
    Nat → F → State → Host.Outcome State Fault Refusal
  | 0, f, s => .next (s.saveTop a (wrap f))
  | more + 1, f, s =>
    match micro a f s with
    | .blocked => .next (s.saveTop a (wrap f))
    | .fault r => .fault r
    | .cont f' s' => burst a wrap micro more f' s'
    | .ret r s' => .next (s'.deliver a r)

/-- The state after agent `a` accepts a request: the operation is in flight with its operand latches loaded (rules R22, R96),
or, for a code with no operation behind it, it is answered `Unsupported` at once, with no other effect (rule R93). -/
def State.acceptOrAnswer {F : Type} (s : State) (a : Nat) (wrap : F → Frame) : Option F → State
  | none => s.answerAtOnce a .unsupported
  | some f => s.accept a (wrap f)

/-- Acceptance, which is the first micro-step of the turn, and up to `more` micro-steps of the operation after it. -/
def admitThen {F : Type} (a : Nat) (wrap : F → Frame) (micro : Nat → F → State → Micro F) (more : Nat) (start : Option F)
    (s : State) : Host.Outcome State Fault Refusal :=
  match more, start with
  | 0, _ => .next (s.acceptOrAnswer a wrap start)
  | _ + 1, none => .next (s.acceptOrAnswer a wrap start)
  | n + 1, some f => burst a wrap micro (n + 1) f (s.acceptOrAnswer a wrap start)

/-- The turn of agent `s.cur` given to one operation. If the agent can accept a request, it accepts this one (`start`), which
counts as the first micro-step; if the operation is in flight on it (`view` finds its latches), it goes on; otherwise this is
a second request while one is in flight, which rule R298 refuses. An index that is no caller agent's does nothing
(notes/assumptions/34). -/
def conduct {F : Type} (refusal : Option Refusal) (start : Option F) (view : Frame → Option F) (wrap : F → Frame)
    (micro : Nat → F → State → Micro F) (s : State) : Host.Outcome State Fault Refusal :=
  match s.callers[s.cur]? with
  | none => .next s
  | some c =>
    if c.accepts then
      match refusal with
      | some r => .refused r
      | none => admitThen s.cur wrap micro s.quantum start s
    else
      match c.stack.head?.bind view with
      | none => .refused .inFlight
      | some f => burst s.cur wrap micro (s.quantum + 1) f s

/-- A request answered at acceptance, with no other effect (rule R93). -/
def answerUnsupported (s : State) : Host.Outcome State Fault Refusal :=
  match s.callers[s.cur]? with
  | none => .next s
  | some c => if c.accepts then .next (s.answerAtOnce s.cur .unsupported) else .refused .inFlight

end Sys2Proof.Machine
end

