-- ==== Sys2Proof/Machine/Background.lean ====
section
/-! DEFINITION. The agents that run no request: the interrupt handler (spec/44), the watchdog and time (spec/43). -/

namespace Sys2Proof.Machine

/-! ## The interrupt handler (rules R260 to R271) -/

/-- The next label of the handler run. -/
def IrqAgent.goto (f : IrqAgent) (l : HLabel) : IrqAgent := { f with label := l }

/-- One micro-step of the handler run (rule R260); at `Idle` it is `H.0`, enabled only while the line is enabled and no run
is in progress (rule R261). -/
def irqStep (f : IrqAgent) (s : State) : Micro IrqAgent :=
  match f.label with
  | .idle => if s.irqEnabled = true ∧ s.irqBusy = false then .cont (f.goto .h1) (s.setIrqBusy true) else .blocked
  | .h1 => .cont (f.goto (if s.pdActive then .h2 else .h9)) s
  | .h2 => regAsk s asWord .readInterruptPending fun p s => .cont ⟨.h3, p⟩ s
  | .h3 => .cont (f.goto .h4) (if pendingBit f.p 0 then s.disarmWd else s)
  | .h4 => .cont (f.goto .h5) (if pendingBit f.p 0 then s.firePh else s)
  | .h5 => .cont (f.goto .h6) (if pendingBit f.p 1 then s.fireRd else s)
  | .h6 => if pendingBit f.p 3 then dump s .rxEccError fun s => .cont (f.goto .h7) s else .cont (f.goto .h7) s
  | .h7 => .cont (f.goto .h7a) (if pendingBit f.p 4 then s.countUnderrun else s)
  | .h7a => .cont (f.goto .h8) (if pendingBit f.p 5 then s.answered.record (.vsyncWake s.answer) else s)
  | .h8 => reg s (.clearInterrupt f.p) fun s => .cont (f.goto .h9) s
  | .h9 => .cont (f.goto .idle) (s.setIrqBusy false)

/-- A turn of the interrupt agent. -/
def irqTurn (s : State) : Host.Outcome State Fault Refusal :=
  match irqStep s.irq s with
  | .blocked => .next s
  | .fault r => .fault r
  | .cont f s' => .next (s'.setIrq f)
  | .ret _ s' => .next s'

/-! ## The watchdog (rules R243, R244) -/

/-- `WD.0`: disarm, recheck, dump if stuck, as one atomic step; not enabled before the deadline or while disarmed. -/
def wdtStep (s : State) : Micro WdtAgent :=
  if s.wdDue then
    regAsk s.disarmWd asBool .headerFifoEmpty fun e s =>
      if e then .cont ⟨e⟩ s else dump s .watchdogStuck fun s => .cont ⟨e⟩ s
  else .blocked

/-- A turn of the watchdog agent. -/
def wdtTurn (s : State) : Host.Outcome State Fault Refusal :=
  match wdtStep s with
  | .blocked => .next s
  | .fault r => .fault r
  | .cont f s' => .next (s'.setWdt f)
  | .ret _ s' => .next s'

/-! ## Time (rule R231) -/

/-- A turn of the time agent. -/
def tickTurn (s : State) : Host.Outcome State Fault Refusal := .next (s.setNow (s.now + 1))

end Sys2Proof.Machine
end

