-- ==== Sys2Proof/Machine/CommandWrite.lean ====
section
/-! DEFINITION. WRITE (spec/41): state gate, completion arming, packet framing, the decision to wait, the wait and its two
timeout outcomes, one micro-step per label. -/

namespace Sys2Proof.Machine

/-- The next label of a WRITE. -/
def WriteFrame.goto (f : WriteFrame) (l : WLabel) : WriteFrame := { f with ctl := f.ctl.goto l }

/-- The result is set and control goes to the exit label `W.11`. -/
def WriteFrame.finish (f : WriteFrame) (r : Result) : WriteFrame := { f with ctl := f.ctl.finish r .w11 }

/-- An error is raised at the exit label `W.11` (rule R288). -/
def WriteFrame.raise (f : WriteFrame) (e : Result) : WriteFrame := { f with ctl := f.ctl.raise e .w11 }

/-- The label of the framer for a packet class (rule R175). -/
def framerLabel : PacketClass → WLabel
  | .shortWrite => .w7s
  | .readReq => .w7r
  | .longWrite => .w7l
  | .unrecognized => .w7u

/-- The command byte of a long write: its first payload byte, absent for an empty payload (rule R178). -/
def longCommand (s : State) (buf : Option BufHandle) (len : Half) : Option Byte :=
  if len.toNat = 0 then none else some (s.memRead buf 0)

/-- `W.8`: whether to wait for the drain (rule R180); the FIFO is asked only when class and command do not decide. -/
def decideWait (f : WriteFrame) (s : State) : Micro WriteFrame :=
  if f.cls = .readReq ∨ s.par.ackRequired f.cls f.cmd = true then .cont { f.goto .w8a with mustWait := true } s
  else regAsk s asBool .fifoWritable fun b s => .cont { f.goto .w8a with mustWait := !b } s

/-- One micro-step of WRITE by agent `a` (rule R170). -/
def writeStep (a : Nat) (f : WriteFrame) (s : State) : Micro WriteFrame :=
  match f.ctl.label with
  | .w0 => .cont (f.goto .w1) (s.record .blockLowPowerExit)
  | .w1 => lockThen a s fun s => .cont (f.goto .w2) s
  | .w2 => if s.link ≠ .on then .cont (f.raise .notReady) s else .cont (f.goto .w3) s
  | .w3 => .cont (f.goto .w4) s.resetPh
  | .w4 => reg s (.clearInterrupt irqPhFifoEmpty) fun s => .cont (f.goto .w5) s
  | .w5 => .cont (f.goto .w6) s.armWd
  | .w6 => .cont { f.goto .w7 with cls := s.par.classify f.ty } s
  | .w7 => .cont { f.goto (framerLabel f.cls) with k := 0 } s
  | .w7s => reg s (.writeHeader f.ty f.d0 f.d1 false) fun s => .cont { f.goto .w8 with cmd := some f.d0 } s
  | .w7r => reg s (.writeHeader f.ty f.d0 f.d1 true) fun s => .cont (f.goto .w8) s
  | .w7l =>
    if f.k < wordsFor f.len.toNat then
      reg s (.writePayload (payloadWord s f.payload f.len.toNat f.k)) fun s => .cont { f.goto .w7l with k := f.k + 1 } s
    else .cont (f.goto .w7h) s
  | .w7h =>
    reg s (.writeHeader f.ty (lowByte f.len) (highByte f.len) false) fun s =>
      .cont { f.goto .w8 with cmd := longCommand s f.payload f.len } s
  | .w7u => .cont (f.raise .unsupported) s
  | .w8 => decideWait f s
  | .w8a => if f.mustWait then .cont { f.goto .w9 with t0 := s.now } s else .cont (f.finish .ok) s
  | .w9 =>
    waitThen s s.sigPh.done f.t0 s.par.wrTimeout.val
      (fun s => .cont { f.goto .w9a with wres := .signaled } s.resetPh)
      (fun s => .cont { f.goto .w9a with wres := .timedOut } s)
  | .w9a => if f.wres = .signaled then .cont (f.finish .ok) s else .cont (f.goto .w10) s
  | .w10 => regAsk s asBool .headerFifoEmpty fun b s => .cont { f.goto .w10a with e := b } s
  | .w10a => .cont (f.goto .w10b) (if f.e then s.disarmWd else s)
  | .w10b => if f.e then .cont (f.finish .ok) s.resetPh else .cont (f.goto .w10c) s
  | .w10c => if s.link = .on then dump s .writeTimeout fun s => .cont (f.goto .w10d) s else .cont (f.goto .w10d) s
  | .w10d => .cont (f.raise .timeout) s
  | .w11 => .cont (f.goto .w12) (s.unlock a)
  | .w12 => .cont (f.goto .w13) (s.record .unblockLowPowerExit)
  | .w13 => .ret f.ctl.res s

/-- The latches of this very WRITE in flight. -/
def Frame.asWrite (ty d0 d1 : Byte) (len : Half) (buf : Option BufHandle) : Frame → Option WriteFrame
  | .write f => if f.ty = ty ∧ f.d0 = d0 ∧ f.d1 = d1 ∧ f.len = len ∧ f.payload = buf then some f else none
  | _ => none

/-- WRITE (rule R170). -/
def execWrite (ty d0 d1 : Byte) (len : Half) (buf : Option BufHandle) (s : State) : Host.Outcome State Fault Refusal :=
  conduct (writeRefusal s.par ty len buf) (some (WriteFrame.start ty d0 d1 len buf)) (Frame.asWrite ty d0 d1 len buf)
    Frame.write writeStep s

end Sys2Proof.Machine
end

