-- ==== Sys2Proof/Machine/CommandRead.lean ====
section
/-! DEFINITION. READ (spec/42): state gate, the two nested WRITEs, the wait for the response and the drain of the RX FIFO,
one micro-step per label. -/

namespace Sys2Proof.Machine

/-- The next label of a READ. -/
def ReadFrame.goto (f : ReadFrame) (l : RLabel) : ReadFrame := { f with ctl := f.ctl.goto l }

/-- The result is set and control goes to an exit label. -/
def ReadFrame.finish (f : ReadFrame) (r : Result) (exit : RLabel) : ReadFrame := { f with ctl := f.ctl.finish r exit }

/-- An error is raised at an exit label (rule R288). -/
def ReadFrame.raise (f : ReadFrame) (e : Result) (exit : RLabel) : ReadFrame := { f with ctl := f.ctl.raise e exit }

/-- One micro-step of a call line `R.4` or `R.5` (rules R23, R204, R205): the nested WRITE `g` begins, or takes one
micro-step on the same agent while the READ keeps its label; when it returns, its result is latched and the READ goes on at
`l`, or at `R.19` if the result is an error. -/
def nestedWrite (a : Nat) (f : ReadFrame) (g : WriteFrame) (l : RLabel) (s : State) : Micro ReadFrame :=
  match f.sub with
  | none => .cont { f with sub := some g } s
  | some w =>
    match writeStep a w s with
    | .blocked => .blocked
    | .fault r => .fault r
    | .cont w' s' => .cont { f with sub := some w' } s'
    | .ret r s' => .cont { f.finish r (if r = .ok then l else .r19) with sub := none } s'

/-- The first request packet: `WRITE T_SET_MAX_RETURN, len[7:0], len[15:8]` (rule R204). -/
def setMaxReturnWrite (p : Params) (len : Half) : WriteFrame :=
  WriteFrame.start p.setMaxReturn (lowByte len) (highByte len) 0 none

/-- The second request packet: `WRITE type, d0, 0x00` (rule R205), with no payload (notes/assumptions/19). -/
def requestWrite (ty d0 : Byte) : WriteFrame := WriteFrame.start ty d0 0 0 none

/-- `append(b)` (rule R213), then the label `l`: the byte is stored while `n < cap` and discarded otherwise. -/
def appendByte (f : ReadFrame) (b : Byte) (l : RLabel) (s : State) : Micro ReadFrame :=
  if f.n.toNat < f.cap.toNat then .cont { f.goto l with n := f.n + 1 } (s.memWrite f.out f.n.toNat b)
  else .cont (f.goto l) s

/-- The label of the drain for a tag class (rule R200, `R.10`). -/
def drainLabel : TagClass → RLabel
  | .ackErr => .r10a
  | .eot => .r10e
  | .short1 => .r10s
  | .short2 => .r10t
  | .long => .r10l
  | .other => .r10o

/-- One micro-step of READ by agent `a` (rule R200). At `R.1` and `R.3`, the two steps where a READ would end before it asks for
the lock, one that a panel callback requests under its agent's own lock is stuck instead (rules R301, R336). -/
def readStep (a : Nat) (f : ReadFrame) (s : State) : Micro ReadFrame :=
  match f.ctl.label with
  | .r0 => .cont (f.goto .r1) (s.record .blockLowPowerExit)
  | .r1 =>
    unlessStuck a s (decide (s.link = .off))
      (if s.link = .off then .cont (f.raise .notReady .r19) s else .cont (f.goto .r2) s)
  | .r2 => .cont (f.goto .r3) s.resetRd
  | .r3 =>
    unlessStuck a s (!s.pdActive) (reg s (.clearInterrupt irqRxDataDone) fun s => .cont (f.goto .r4) s)
  | .r4 => nestedWrite a f (setMaxReturnWrite s.par f.len) .r5 s
  | .r5 =>
    match nestedWrite a f (requestWrite f.ty f.d0) .r6 s with
    | .cont f' s' => .cont { f' with t0 := s'.now } s'
    | .blocked => .blocked
    | .fault r => .fault r
    | .ret r s' => .ret r s'
  | .r6 =>
    waitThen s s.sigRd.done f.t0 s.par.rdTimeout.val
      (fun s => .cont { f.goto .r6a with wres := .signaled } s.resetRd)
      (fun s => .cont { f.goto .r6a with wres := .timedOut } s)
  | .r6a => if f.wres = .timedOut then .cont (f.raise .timeout .r19) s else .cont (f.goto .r7) s
  | .r7 => lockThen a s fun s => .cont (f.goto .r8) s
  | .r8 => .cont { f.goto .r9 with n := 0, iter := s.par.rxFifoDepth.val } s
  | .r9 => regAsk s asWord .readRxFifo fun w s => .cont { f.goto .r10 with w := w } s
  | .r10 => .cont (f.goto (drainLabel (s.par.rxTagClass (rxTag f.w)))) s
  | .r10a => regAsk s asErrorCode (.decodeRxError f.w) fun e s => .cont { f.goto .r10b with err := e } s
  | .r10b => dump s .rxAckErr fun s => .cont (f.goto .r10c) s
  | .r10c => .cont (f.raise (.protocolError (some f.err)) .r18) s
  | .r10e => .cont (f.goto .r15) s
  | .r10s => appendByte f (rxData0 f.w) .r15 s
  | .r10t => appendByte f (rxData0 f.w) .r10t2 s
  | .r10t2 => appendByte f (rxData1 f.w) .r15 s
  | .r10l => .cont { f.goto .r10m with cnt := rxCount f.w, j := 0 } s
  | .r10m => .cont (f.goto (if f.j < wordsFor f.cnt.toNat then .r10n else .r15)) s
  | .r10n => regAsk s asWord .readRxFifo fun v s => .cont { f.goto .r10p with v := v, b := 0 } s
  | .r10p =>
    if f.b < min 4 (f.cnt.toNat - 4 * f.j) then appendByte { f with b := f.b + 1 } (byteOf f.v f.b) .r10p s
    else .cont { f.goto .r10m with j := f.j + 1 } s
  | .r10o => dump s .rxBadTag fun s => .cont (f.goto .r10q) s
  | .r10q => .cont (f.raise (.protocolError none) .r18) s
  | .r15 =>
    regAsk s asBool .rxFifoEmpty fun b s =>
      if b then .cont (f.finish (.okCount f.n) .r18) s else .cont (f.goto .r16) s
  | .r16 => .cont { f.goto .r16a with iter := f.iter - 1 } s
  | .r16a =>
    if f.iter = 0 then dump s .rxDrainExhausted fun s => .cont (f.raise (.protocolError none) .r18) s
    else .cont (f.goto .r17) s
  | .r17 => .cont (f.goto .r9) s
  | .r18 => .cont (f.goto .r19) (s.unlock a)
  | .r19 => .cont (f.goto .r20) (s.record .unblockLowPowerExit)
  | .r20 => .ret f.ctl.res s

/-- The latches of this very READ in flight. -/
def Frame.asRead (ty addr : Byte) (maxLen cap : Half) (buf : Option BufHandle) : Frame → Option ReadFrame
  | .read f => if f.ty = ty ∧ f.d0 = addr ∧ f.len = maxLen ∧ f.cap = cap ∧ f.out = buf then some f else none
  | _ => none

/-- READ (rule R200). -/
def execRead (ty addr : Byte) (maxLen cap : Half) (buf : Option BufHandle) (s : State) :
    Host.Outcome State Fault Refusal :=
  conduct (readRefusal cap buf) (some (ReadFrame.start ty addr maxLen cap buf)) (Frame.asRead ty addr maxLen cap buf)
    Frame.read readStep s

end Sys2Proof.Machine
end

