-- ==== Sys2Proof/Machine/LinkStateMachine.lean ====
section
/-! DEFINITION. The six state-machine operations of spec/40: `bring_up` (ENABLE, DOZE), `tear_down` (DISABLE, DOZE_SUSPEND),
ENTER_LP and EXIT_LP, one micro-step per label. -/

namespace Sys2Proof.Machine

/-! ## bring_up (rules R133 to R143) -/

/-- The next label of a bring-up, outside any callback. -/
def BuFrame.goto (f : BuFrame) (l : BuLabel) : BuFrame := { f with ctl := f.ctl.goto l, cb := false }

/-- The result is set and control goes to the exit label. -/
def BuFrame.finish (f : BuFrame) (r : Result) (exit : BuLabel) : BuFrame :=
  { f with ctl := f.ctl.finish r exit, cb := false }

/-- The next label of a bring-up whose agent is now inside the callback it has invoked. -/
def BuFrame.gotoInCallback (f : BuFrame) (l : BuLabel) : BuFrame := { f with ctl := f.ctl.goto l, cb := true }

/-- The wake callback of a target (rule R143): `doze` for DOZE, else what `PANEL_WAKE_CB` says. -/
def wakeCallback (p : Params) (target : LinkState) : PanelCb :=
  match target with
  | .doze => .doze
  | _ => match p.panelWake with
    | .sleepOut => .sleepOut
    | .displayOn => .displayOn

/-- One micro-step of `bring_up(goal)` by agent `a` (rule R133). -/
def bringUp (goal : LinkState) (a : Nat) (f : BuFrame) (s : State) : Micro BuFrame :=
  match f.ctl.label with
  | .bu0 => .cont { f.goto .bu1 with target := goal } s
  | .bu1 => lockThen a s fun s => .cont (f.goto .bu2) s
  | .bu2 => .cont { f.goto .bu3 with prev := s.link } s
  | .bu3 => if f.prev = f.target then .cont (f.finish .ok .bu27) s else .cont (f.goto .bu4) s
  | .bu4 => .cont (f.goto (if f.prev.onClass then .bu4a else .bu5)) s
  | .bu4a => .cont (f.goto .bu4b) (if f.prev = .on then s.disarmWd else s)
  | .bu4b => .cont (f.finish .ok .bu27) (s.setLink f.target)
  | .bu5 => .cont (f.goto .bu6) (s.act .clkDomainResume)
  | .bu6 => .cont (f.goto .bu7) (s.act .phyRouteCfg)
  | .bu7 => .cont (f.goto .bu8) (s.act .phyIsoRelease)
  | .bu8 =>
    if f.prev = .init then regAsk s asBool .pllStable fun b s => .cont { f.goto .bu9 with handoff := b } s
    else .cont { f.goto .bu9 with handoff := false } s
  | .bu9 => .cont (f.goto (if f.handoff then .bu24 else .bu10)) s
  | .bu10 => .cont (f.goto .bu11) (s.act .dphyResetAssert)
  | .bu11 => .cont (f.gotoInCallback .bu12) (s.panel .powerOn)
  | .bu12 => .cont (f.goto .bu13) (s.act .linkSwReset)
  | .bu13 => .cont (f.goto .bu14) (s.act (.clkDividersProgram s.cfg))
  | .bu14 => .cont (f.goto .bu15) (s.act (.dataLanesEnable s.cfg))
  | .bu15 => .cont (f.goto .bu16) (s.act .dphyResetRelease)
  | .bu16 => .cont (f.goto .bu17) (s.act .linkClkSrcSwitch)
  | .bu17 => .cont (f.goto .bu18) (s.act .escClkOnLaneEnable)
  | .bu18 => .cont (f.goto .bu19) (s.act .wordClkEnable)
  | .bu19 =>
    .cont { f.goto .bu20 with initRes := (s.actAsk asInit (.linkTimingInit s.cfg)).1 }
      (s.actAsk asInit (.linkTimingInit s.cfg)).2
  | .bu20 =>
    if f.initRes = .ok then .cont (f.gotoInCallback .bu24) (s.panel .reset) else .cont (f.goto .bu24) s
  | .bu24 => .cont (f.goto .bu25) (s.act .linkStart)
  | .bu25 => .cont (f.goto .bu26) (s.act .irqLineEnable)
  | .bu26 => .cont (f.finish .ok .bu27) (s.setLink f.target)
  | .bu27 => .cont (f.goto .bu28) (s.unlock a)
  | .bu28 =>
    if f.prev ≠ f.target ∧ f.prev ≠ .init then
      .cont (f.gotoInCallback .bu29) (s.panel (wakeCallback s.par f.target))
    else .cont (f.goto .bu29) s
  | .bu29 => .ret f.ctl.res s

/-! ## tear_down (rules R144 to R146) -/

/-- The next label of a teardown, outside any callback. -/
def TdFrame.goto (f : TdFrame) (l : TdLabel) : TdFrame := { f with ctl := f.ctl.goto l, cb := false }

/-- The result is set and control goes to the exit label. -/
def TdFrame.finish (f : TdFrame) (r : Result) (exit : TdLabel) : TdFrame :=
  { f with ctl := f.ctl.finish r exit, cb := false }

/-- The next label of a teardown whose agent is now inside the callback it has invoked. -/
def TdFrame.gotoInCallback (f : TdFrame) (l : TdLabel) : TdFrame := { f with ctl := f.ctl.goto l, cb := true }

/-- `Act(IrqLineDisable)`: not enabled while a handler run is in progress (rule R131). -/
def irqLineDisableThen {F : Type} (s : State) (k : State → Micro F) : Micro F :=
  if s.irqBusy then .blocked else k (s.act .irqLineDisable)

/-- `if target = OFF: Panel.power_off()`, then the label `l` (rules R145, R146). -/
def powerOffIfOff (f : TdFrame) (l : TdLabel) (s : State) : Micro TdFrame :=
  if f.target = .off then .cont (f.gotoInCallback l) (s.panel .powerOff) else .cont (f.goto l) s

/-- One micro-step of `tear_down(goal)` by agent `a` (rule R144). -/
def tearDown (goal : LinkState) (a : Nat) (f : TdFrame) (s : State) : Micro TdFrame :=
  match f.ctl.label with
  | .td0 => .cont { f.goto .td1 with target := goal } s
  | .td1 => lockThen a s fun s => .cont (f.goto .td2) s
  | .td2 => .cont { f.goto .td3 with prev := s.link } s
  | .td3 => .cont (f.goto (if f.prev.offClass then .td3a else .td4)) s
  | .td3a => powerOffIfOff f .td3b s
  | .td3b => .cont (f.goto .td3c) (if f.prev ≠ f.target then s.setLink f.target else s)
  | .td3c => .cont (f.finish .ok .td11) s
  | .td4 => .cont (f.goto .td5) s.disarmWd
  | .td5 => .cont (f.goto .td6) (s.setLink f.target)
  | .td6 => .cont (f.goto .td7) (s.act .linkStop)
  | .td7 => irqLineDisableThen s fun s => .cont (f.goto .td8) s
  | .td8 => .cont (f.goto .td9) (s.act .phyPowerOff)
  | .td9 => powerOffIfOff f .td10 s
  | .td10 => .cont (f.finish .ok .td11) (s.act .clkDomainSuspend)
  | .td11 => .cont (f.goto .td12) (s.unlock a)
  | .td12 => .ret f.ctl.res s

/-! ## ENTER_LP (rules R149 to R152) -/

/-- The next label of an ENTER_LP. -/
def ElFrame.goto (f : ElFrame) (l : ElLabel) : ElFrame := { f with ctl := f.ctl.goto l }

/-- One micro-step of ENTER_LP by agent `a` (rule R149). -/
def enterLpStep (a : Nat) (f : ElFrame) (s : State) : Micro ElFrame :=
  match f.ctl.label with
  | .el1 => lockThen a s fun s => .cont (f.goto .el2) s
  | .el2 => if s.link ≠ .on then .cont { f with ctl := f.ctl.raise .invalidState .el10 } s else .cont (f.goto .el3) s
  | .el3 => .cont (f.goto .el4) s.disarmWd
  | .el4 => .cont (f.goto .el5) (s.setLink .ulps)
  | .el5 => irqLineDisableThen s fun s => .cont (f.goto .el6) s
  | .el6 => .cont (f.goto .el7) (s.act .linkStop)
  | .el7 => .cont { f.goto .el7a with retRes := (s.actAsk asRet .enterRetention).1 } (s.actAsk asRet .enterRetention).2
  | .el7a => if f.retRes = .fail then dump s .retentionFail fun s => .cont (f.goto .el8) s else .cont (f.goto .el8) s
  | .el8 => .cont (f.goto .el9) (s.act .phyPowerOff)
  | .el9 => .cont { f with ctl := f.ctl.finish .ok .el10 } (s.act .clkDomainSuspend)
  | .el10 => .cont (f.goto .el11) (s.unlock a)
  | .el11 => .ret f.ctl.res s

/-! ## EXIT_LP (rules R153 to R155) -/

/-- The next label of an EXIT_LP. -/
def XlFrame.goto (f : XlFrame) (l : XlLabel) : XlFrame := { f with ctl := f.ctl.goto l }

/-- One micro-step of EXIT_LP by agent `a` (rule R153). -/
def exitLpStep (a : Nat) (f : XlFrame) (s : State) : Micro XlFrame :=
  match f.ctl.label with
  | .xl1 => lockThen a s fun s => .cont (f.goto .xl2) s
  | .xl2 => if s.link ≠ .ulps then .cont { f with ctl := f.ctl.raise .invalidState .xl19 } s else .cont (f.goto .xl3) s
  | .xl3 => .cont (f.goto .xl4) (s.act .clkDomainResume)
  | .xl4 => .cont (f.goto .xl5) (s.act .phyRouteCfg)
  | .xl5 => .cont (f.goto .xl6) (s.act .phyIsoRelease)
  | .xl6 => .cont (f.goto .xl7) (s.act .dphyResetAssert)
  | .xl7 => .cont (f.goto .xl8) (s.act .linkSwReset)
  | .xl8 => .cont (f.goto .xl9) (s.act (.clkDividersProgram s.cfg))
  | .xl9 => .cont (f.goto .xl10) (s.act (.dataLanesEnable s.cfg))
  | .xl10 => .cont (f.goto .xl11) (s.act .dphyResetRelease)
  | .xl11 => .cont (f.goto .xl12) (s.act .linkClkSrcSwitch)
  | .xl12 => .cont (f.goto .xl13) (s.act .escClkOnLaneEnable)
  | .xl13 => .cont (f.goto .xl14) (s.act .wordClkEnable)
  | .xl14 =>
    .cont { f.goto .xl15 with initRes := (s.actAsk asInit (.linkTimingInit s.cfg)).1 }
      (s.actAsk asInit (.linkTimingInit s.cfg)).2
  | .xl15 => .cont (f.goto .xl16) (s.act .exitRetention)
  | .xl16 => .cont (f.goto .xl17) (s.act .linkStart)
  | .xl17 => .cont (f.goto .xl18) (s.act .irqLineEnable)
  | .xl18 => .cont { f with ctl := f.ctl.finish .ok .xl19 } (s.setLink .on)
  | .xl19 => .cont (f.goto .xl20) (s.unlock a)
  | .xl20 => .ret f.ctl.res s

/-! ## The meanings -/

/-- The latches of an ENABLE in flight. -/
def Frame.asEnable : Frame → Option BuFrame
  | .enable f => some f
  | _ => none
/-- The latches of a DOZE in flight. -/
def Frame.asDoze : Frame → Option BuFrame
  | .doze f => some f
  | _ => none
/-- The latches of a DISABLE in flight. -/
def Frame.asDisable : Frame → Option TdFrame
  | .disable f => some f
  | _ => none
/-- The latches of a DOZE_SUSPEND in flight. -/
def Frame.asDozeSuspend : Frame → Option TdFrame
  | .dozeSuspend f => some f
  | _ => none
/-- The latches of an ENTER_LP in flight. -/
def Frame.asEnterLp : Frame → Option ElFrame
  | .enterLp f => some f
  | _ => none
/-- The latches of an EXIT_LP in flight. -/
def Frame.asExitLp : Frame → Option XlFrame
  | .exitLp f => some f
  | _ => none

/-- ENABLE = `bring_up(ON)` (rules R130, R133). -/
def execEnable (s : State) : Host.Outcome State Fault Refusal :=
  conduct none (some BuFrame.start) Frame.asEnable Frame.enable (bringUp .on) s

/-- DISABLE = `tear_down(OFF)` (rules R130, R144). -/
def execDisable (s : State) : Host.Outcome State Fault Refusal :=
  conduct none (some TdFrame.start) Frame.asDisable Frame.disable (tearDown .off) s

/-- ENTER_LP (rule R149). -/
def execEnterLp (s : State) : Host.Outcome State Fault Refusal :=
  conduct none (some ElFrame.start) Frame.asEnterLp Frame.enterLp enterLpStep s

/-- EXIT_LP (rule R153). -/
def execExitLp (s : State) : Host.Outcome State Fault Refusal :=
  conduct none (some XlFrame.start) Frame.asExitLp Frame.exitLp exitLpStep s

/-- DOZE = `bring_up(DOZE)` when `HAS_DOZE` (rules R130, R158); a reserved code otherwise (rules R93, R157). -/
def execDoze (s : State) : Host.Outcome State Fault Refusal :=
  conduct none (if s.par.hasDoze then some BuFrame.start else none) Frame.asDoze Frame.doze (bringUp .doze) s

/-- DOZE_SUSPEND = `tear_down(DOZE_SUSPEND)` when `HAS_DOZE` (rules R130, R160); a reserved code otherwise (rules R93,
R157). -/
def execDozeSuspend (s : State) : Host.Outcome State Fault Refusal :=
  conduct none (if s.par.hasDoze then some TdFrame.start else none) Frame.asDozeSuspend Frame.dozeSuspend
    (tearDown .dozeSuspend) s

end Sys2Proof.Machine
end

