-- ==== Sys2Proof/Machine/Reserved.lean ====
section
/-! DEFINITION. The eight reserved operation codes (rule R93): a request with one "returns `Unsupported` and has no other
effect", whatever its other bits are. -/

namespace Sys2Proof.Machine

/-- OP 0x6. -/
def execReserved6 (_rest : BitVec 28) (_req1 : Word) (s : State) : Host.Outcome State Fault Refusal := answerUnsupported s
/-- OP 0x7. -/
def execReserved7 (_rest : BitVec 28) (_req1 : Word) (s : State) : Host.Outcome State Fault Refusal := answerUnsupported s
/-- OP 0xA. -/
def execReservedA (_rest : BitVec 28) (_req1 : Word) (s : State) : Host.Outcome State Fault Refusal := answerUnsupported s
/-- OP 0xB. -/
def execReservedB (_rest : BitVec 28) (_req1 : Word) (s : State) : Host.Outcome State Fault Refusal := answerUnsupported s
/-- OP 0xC. -/
def execReservedC (_rest : BitVec 28) (_req1 : Word) (s : State) : Host.Outcome State Fault Refusal := answerUnsupported s
/-- OP 0xD. -/
def execReservedD (_rest : BitVec 28) (_req1 : Word) (s : State) : Host.Outcome State Fault Refusal := answerUnsupported s
/-- OP 0xE. -/
def execReservedE (_rest : BitVec 28) (_req1 : Word) (s : State) : Host.Outcome State Fault Refusal := answerUnsupported s
/-- OP 0xF. -/
def execReservedF (_rest : BitVec 28) (_req1 : Word) (s : State) : Host.Outcome State Fault Refusal := answerUnsupported s

end Sys2Proof.Machine
end

