-- ==== Sys2Proof/Machine/Dispatch.lean ====
section
/-! DEFINITION. From an operation to its meaning: one arm per constructor. -/

namespace Sys2Proof.Machine

def exec (i : Instr) (s : State) : Host.Outcome State Fault Refusal :=
  match i with
  | .enable => Sys2Proof.Machine.execEnable s
  | .disable => Sys2Proof.Machine.execDisable s
  | .enterLp => Sys2Proof.Machine.execEnterLp s
  | .exitLp => Sys2Proof.Machine.execExitLp s
  | .doze => Sys2Proof.Machine.execDoze s
  | .dozeSuspend => Sys2Proof.Machine.execDozeSuspend s
  | .write ty d0 d1 len buf => Sys2Proof.Machine.execWrite ty d0 d1 len buf s
  | .read ty addr maxLen cap buf => Sys2Proof.Machine.execRead ty addr maxLen cap buf s
  | .reserved6 rest req1 => Sys2Proof.Machine.execReserved6 rest req1 s
  | .reserved7 rest req1 => Sys2Proof.Machine.execReserved7 rest req1 s
  | .reservedA rest req1 => Sys2Proof.Machine.execReservedA rest req1 s
  | .reservedB rest req1 => Sys2Proof.Machine.execReservedB rest req1 s
  | .reservedC rest req1 => Sys2Proof.Machine.execReservedC rest req1 s
  | .reservedD rest req1 => Sys2Proof.Machine.execReservedD rest req1 s
  | .reservedE rest req1 => Sys2Proof.Machine.execReservedE rest req1 s
  | .reservedF rest req1 => Sys2Proof.Machine.execReservedF rest req1 s

end Sys2Proof.Machine
end

