-- ==== Sys2Proof/Machine/Schedule.lean ====
section
/-! DEFINITION. Which agent moves and what it executes: the turn, the operation a caller agent is to go on with (this
hardware's instruction fetch), and the host's two inputs. -/

namespace Sys2Proof.Machine

/-- The turn that comes next: the first of `turns`, or a free value (rule R70). -/
def State.nextTurn (s : State) : Turn :=
  match s.turns with
  | [] => Config.freeTurn s.turnDraws
  | t :: _ => t

/-- The state once that turn has been taken. -/
def State.turnTaken (s : State) : State :=
  match s.turns with
  | [] => s.setTurns [] (s.turnDraws + 1)
  | _ :: rest => s.setTurns rest s.turnDraws

/-- What a caller agent's turn executes: the request at its port if it can accept one, else the operation in flight, else
nothing (rules R23, R301). -/
def Caller.nextInstr (p : Params) (c : Caller) : Option (Except DecodeError Instr) :=
  if c.accepts then c.port.map (decodeRequest p)
  else c.stack.head?.map fun f => .ok f.instr

/-- A turn of caller agent `a`: a descriptor with a nonzero field that must be zero is refused (rules R93, R298). An index
that is no caller agent's does nothing (notes/assumptions/34). -/
def callerTurn (a more : Nat) (s : State) : Host.Outcome State Fault Refusal :=
  match s.callers[a]? with
  | none => .next s
  | some c =>
    match c.nextInstr s.par with
    | none => .next s
    | some (.error e) => .refused (.malformed e)
    | some (.ok i) => exec i (s.focus a more)

/-- A request is presented at caller `a`'s port: by the host to an `Idle` agent, or by a panel inside a callback; refused
while the agent has an operation in flight or a request waiting (rules R90, R298, R301). -/
def presentRequest (a : Nat) (r : Request) (s : State) : Host.Outcome State Fault Refusal :=
  match s.callers[a]? with
  | none => .next s
  | some c =>
    if c.port.isNone && c.atRest then
      .next (s.modifyCaller a fun c => { c with port := some r })
    else .refused .inFlight

/-- One turn of the machine. A host store always takes effect, and later reads of the byte return it: between a request's
acceptance and its return rule R61 guarantees neither, so there this is the model's choice (DESIGN CHOICE, unsafe,
notes/assumptions/10). -/
def runTurn (t : Turn) (s : State) : Host.Outcome State Fault Refusal :=
  match t with
  | .caller a more => callerTurn a more s
  | .irq => irqTurn s
  | .wdt => wdtTurn s
  | .tick => tickTurn s
  | .request a r => presentRequest a r s
  | .hostStore addr v => .next (s.setMem (Memory.write s.mem addr v))

/-- `s` with a request at the port of caller agent 0, that agent `Idle`, and its turn, for one micro-step, next. -/
def placeRequest (s : State) (r : Request) : State :=
  (s.modifyCaller 0 fun c => { c with port := some r, stack := [] }).setTurns (.caller 0 0 :: s.turns) s.turnDraws

end Sys2Proof.Machine
end

