-- ==== Sys2Proof/Machine/Step.lean ====
section
/-! DEFINITION. One step of the machine: the next turn is taken; after a fault there is none (rules R39, R296). -/

namespace Sys2Proof.Machine

/-- One step. -/
def step (s : State) : Host.Outcome State Fault Refusal :=
  match s.fault with
  | some r => .fault r
  | none => runTurn s.nextTurn s.turnTaken

/-- `s` with the request whose bits are `w` presented to caller agent 0 and its turn next (notes/assumptions/31). -/
def State.withFetchWord (s : State) (nbits w : Nat) : State := placeRequest s (tableRequest nbits w)

end Sys2Proof.Machine
end

