-- ==== Sys2Proof/Safety.lean ====
section
/-! DEFINITION. The terms in which claims about the core are stated: the documented event sequences, what an agent is doing,
which events are hardware accesses, and the invariants of a run (rules R26, R163, R246, R262, R296). -/

namespace Sys2Proof.Machine

/-! ## Documented event sequences (rules R131, R136, R138, R141, R146, R154) -/

/-- "powers the clock domain, configures PHY routing, releases PHY isolation" (rule R136). -/
def preambleEvents : List Event := [.act .clkDomainResume, .act .phyRouteCfg, .act .phyIsoRelease]

/-- The full bring-up sequence (rule R138) with the answer of its last step, and the panel reset after success (rule
R140). -/
def bringUpEvents (cfg : LinkConfig) (a : InitAnswer) : List Event :=
  [.act .dphyResetAssert, .panel .powerOn, .act .linkSwReset, .act (.clkDividersProgram cfg),
   .act (.dataLanesEnable cfg), .act .dphyResetRelease, .act .linkClkSrcSwitch, .act .escClkOnLaneEnable,
   .act .wordClkEnable, .act (.linkTimingInit cfg a)] ++ (if a = .ok then [.panel .reset] else [])

/-- The re-programming of EXIT_LP: the sequence of rule R138 without its panel step (rule R154). -/
def reprogramEvents (cfg : LinkConfig) (a : InitAnswer) : List Event :=
  [.act .dphyResetAssert, .act .linkSwReset, .act (.clkDividersProgram cfg), .act (.dataLanesEnable cfg),
   .act .dphyResetRelease, .act .linkClkSrcSwitch, .act .escClkOnLaneEnable, .act .wordClkEnable,
   .act (.linkTimingInit cfg a)]

/-- "Finally starts the link and re-enables the interrupt line" (rule R141). -/
def startEvents : List Event := [.act .linkStart, .act .irqLineEnable]

/-- The teardown sequence (rule R146). -/
def tearDownEvents (target : LinkState) : List Event :=
  [.act .linkStop, .act .irqLineDisable, .act .phyPowerOff] ++ (if target = .off then [.panel .powerOff] else []) ++
    [.act .clkDomainSuspend]

/-- The ENTER_LP sequence with the answer of the retention entry (rules R149, R150, R151). -/
def enterLpEvents (a : RetAnswer) : List Event :=
  [.act .irqLineDisable, .act .linkStop, .act (.enterRetention a)] ++
    (if a = .fail then [.dump .retentionFail] else []) ++ [.act .phyPowerOff, .act .clkDomainSuspend]

/-- The payload words of a long write, in order (rule R178). -/
def payloadEvents (s : State) (buf : Option BufHandle) (len : Nat) : List Event :=
  (List.range (wordsFor len)).map fun k => .writePayload (payloadWord s buf len k)

/-- The FIFO pushes of a WRITE, by the class of its packet (rules R176, R177, R178). -/
def packetEvents (s : State) (ty d0 d1 : Byte) (len : Half) (buf : Option BufHandle) : List Event :=
  match s.par.classify ty with
  | .shortWrite => [.writeHeader ty d0 d1 false]
  | .readReq => [.writeHeader ty d0 d1 true]
  | .longWrite => payloadEvents s buf len.toNat ++ [.writeHeader ty (lowByte len) (highByte len) false]
  | .unrecognized => []

/-- The command byte of a WRITE (rules R176, R178): `d0` of a short write, the first payload byte of a long one. -/
def commandByte (s : State) (ty d0 : Byte) (len : Half) (buf : Option BufHandle) : Option Byte :=
  match s.par.classify ty with
  | .shortWrite => some d0
  | .longWrite => if len.toNat = 0 then none else some (s.memRead buf 0)
  | .readReq | .unrecognized => none

/-- The class or the command byte alone decides that a WRITE waits (rule R180). -/
def waitDecided (s : State) (ty d0 : Byte) (len : Half) (buf : Option BufHandle) : Bool :=
  match s.par.classify ty with
  | .readReq => true
  | cls => s.par.ackRequired cls (commandByte s ty d0 len buf)

/-- Received bytes stored at `out[0], out[1], ...` while they fit in `cap` (rules R208, R213). -/
def storeBytes (mem : List Host.Cell) (out : Option BufHandle) (cap : Nat) (bytes : List Byte) : List Host.Cell :=
  (bytes.take cap).zipIdx.foldl (fun m b => Memory.write m (bufAddr out b.2) b.1) mem

/-- The bytes of a long response of `cnt` bytes in data words `ws`, low byte first (rules R104, R214). -/
def responseBytes (ws : List Nat) (cnt : Nat) : List Byte :=
  (List.range cnt).map fun i => byteOf (asWord (ws.getD (i / 4) 0)) (i % 4)

/-! ## What the agent that has the turn is doing -/

/-- The agent that has the turn is `Idle`. -/
def State.idleAs (s : State) (c : Caller) : Prop := s.callers[s.cur]? = some c ∧ c.stack = []

/-- The agent that has the turn goes on with the operation `f`, and not with a request from a panel callback. -/
def State.runs (s : State) (c : Caller) (f : Frame) (rest : List Frame) : Prop :=
  s.callers[s.cur]? = some c ∧ c.stack = f :: rest ∧ c.accepts = false

/-- The caller agents once the `Idle` agent `c` that has the turn has accepted a request and been answered `r`. -/
def State.answeredCallers (s : State) (c : Caller) (r : Result) : List Caller :=
  s.callers.set s.cur { c with port := none, ret := some r }

/-- The caller agents once the operation in flight of the agent `c` that has the turn has returned `r`. -/
def State.returnedCallers (s : State) (c : Caller) (rest : List Frame) (r : Result) : List Caller :=
  s.callers.set s.cur { c with ret := some r, stack := rest }

/-- The watchdog after `W.5`: armed, `WR_TIMEOUT` ticks from now (rule R174). -/
def State.armedWd (s : State) : Watchdog := ⟨true, s.now + s.par.wrTimeout.val⟩

/-- The watchdog after a disarm (rule R242). -/
def State.disarmedWd (s : State) : Watchdog := ⟨false, s.wd.deadline⟩

/-! ## What an uninterrupted transition leaves (rules R134 to R155, and the matrix of R28) -/

/-- The state a bring-up to `goal` leaves when nothing interrupts it, by the state found: the no-op (R134), the collapse
(R135), the handoff (R137), and the full sequence (R138 to R143). -/
def afterBringUp (goal : LinkState) (s : State) (c : Caller) : State :=
  if s.link = goal then { s with callers := s.answeredCallers c .ok }
  else if s.link.onClass then
    { s with
      link := goal
      wd := if s.link = .on then s.disarmedWd else s.wd
      hist := s.hist ++ [.panel (wakeCallback s.par goal)]
      callers := s.answeredCallers c .ok }
  else if s.link = .init then
    if asBool s.answer then
      { s.answered with
        link := goal, pdActive := true, phyOn := true, irqEnabled := true
        hist := s.hist ++ preambleEvents ++ [.pllStable true] ++ startEvents
        callers := s.answeredCallers c .ok }
    else
      { s.answered.answered with
        link := goal, pdActive := true, phyOn := true, irqEnabled := true
        hist := s.hist ++ preambleEvents ++ [.pllStable false] ++ bringUpEvents s.cfg (asInit s.answered.answer) ++
          startEvents
        callers := s.answeredCallers c .ok }
  else
    { s.answered with
      link := goal, pdActive := true, phyOn := true, irqEnabled := true
      hist := s.hist ++ preambleEvents ++ bringUpEvents s.cfg (asInit s.answer) ++ startEvents ++
        [.panel (wakeCallback s.par goal)]
      callers := s.answeredCallers c .ok }

/-- The state a teardown to `goal` leaves when nothing interrupts it: the OFF-class path (R145) and the sequence (R146). -/
def afterTearDown (goal : LinkState) (s : State) (c : Caller) : State :=
  if s.link.offClass then
    { s with
      link := goal
      hist := s.hist ++ (if goal = .off then [.panel .powerOff] else [])
      callers := s.answeredCallers c .ok }
  else
    { s with
      link := goal, wd := s.disarmedWd, pdActive := false, phyOn := false, irqEnabled := false
      hist := s.hist ++ tearDownEvents goal
      callers := s.answeredCallers c .ok }

/-- The state an ENTER_LP leaves when nothing interrupts it (R149 to R152). -/
def afterEnterLp (s : State) (c : Caller) : State :=
  if s.link = .on then
    { s.answered with
      link := .ulps, wd := s.disarmedWd, pdActive := false, phyOn := false, irqEnabled := false
      hist := s.hist ++ enterLpEvents (asRet s.answer)
      callers := s.answeredCallers c .ok }
  else { s with callers := s.answeredCallers c .invalidState }

/-- The state an EXIT_LP leaves when nothing interrupts it (R152 to R155). -/
def afterExitLp (s : State) (c : Caller) : State :=
  if s.link = .ulps then
    { s.answered with
      link := .on, pdActive := true, phyOn := true, irqEnabled := true
      hist := s.hist ++ preambleEvents ++ reprogramEvents s.cfg (asInit s.answer) ++ [.act .exitRetention] ++ startEvents
      callers := s.answeredCallers c .ok }
  else { s with callers := s.answeredCallers c .invalidState }

/-- The matrix of rule R28: the state left by a transition found in a state; `none` is the failure with `InvalidState`. -/
def linkMatrix : Instr → LinkState → Option LinkState
  | .enable, _ => some .on
  | .disable, _ => some .off
  | .enterLp, .on => some .ulps
  | .enterLp, _ => none
  | .exitLp, .ulps => some .on
  | .exitLp, _ => none
  | .doze, _ => some .doze
  | .dozeSuspend, _ => some .dozeSuspend
  | _, found => some found

/-! ## Commands in flight (rules R170 to R222) -/

/-- The latches of a WRITE that has reached its wait `W.9` in this state (rule R236). -/
def writeAtWait (s : State) (ty d0 d1 : Byte) (len : Half) (buf : Option BufHandle) : WriteFrame :=
  { WriteFrame.start ty d0 d1 len buf with
    ctl := ⟨.w9, .ok⟩
    cls := s.par.classify ty
    cmd := commandByte s ty d0 len buf
    mustWait := true
    k := if s.par.classify ty = .longWrite then wordsFor len.toNat else 0
    t0 := s.now }

/-- The first two events of a WRITE that passes the state gate (rules R171, R173). -/
def writeStartEvents : List Event := [.blockLowPowerExit, .clearInterrupt irqPhFifoEmpty]

/-- The state an `Idle` agent's WRITE leaves when it passes the state gate and does not wait (rules R173 to R181). -/
def afterUnwaitedWrite (s : State) (c : Caller) (ty d0 d1 : Byte) (len : Half) (buf : Option BufHandle) : State :=
  { s.answered with
    sigPh := ⟨false⟩, wd := s.armedWd
    hist := s.hist ++ writeStartEvents ++ packetEvents s ty d0 d1 len buf ++ [.fifoWritable true, .unblockLowPowerExit]
    callers := s.answeredCallers c .ok }

/-- The state an `Idle` agent's WRITE leaves when it blocks in its wait (rules R173 to R182): `asked` says whether the FIFO
was asked first. -/
def whileWriteWaits (s : State) (c : Caller) (asked : Bool) (ty d0 d1 : Byte) (len : Half) (buf : Option BufHandle) :
    State :=
  { (if asked then s.answered else s) with
    lock := .held s.cur, sigPh := ⟨false⟩, wd := s.armedWd
    hist := s.hist ++ writeStartEvents ++ packetEvents s ty d0 d1 len buf ++
      (if asked then [.fifoWritable false] else [])
    callers := s.callers.set s.cur { c with port := none, stack := [.write (writeAtWait s ty d0 d1 len buf)] } }

/-- The state left when a WRITE or READ in flight returns `r` through its common exit, the lock released: these events, then
the unblocking (rules R185, R218). -/
def afterCommand (s : State) (c : Caller) (rest : List Frame) (events : List Event) (r : Result) : State :=
  { s with
    lock := .free
    hist := s.hist ++ events ++ [.unblockLowPowerExit]
    callers := s.returnedCallers c rest r }

/-- The state an `Idle` agent's READ leaves when it blocks in the wait of its first request packet (rules R203, R204): `asked`
says whether the FIFO was asked first. -/
def whileFirstRequestWaits (s : State) (c : Caller) (asked : Bool) (ty addr : Byte) (maxLen cap : Half)
    (buf : Option BufHandle) : State :=
  { (if asked then s.answered else s) with
    lock := .held s.cur, sigPh := ⟨false⟩, sigRd := ⟨false⟩, wd := s.armedWd
    hist := s.hist ++ [.blockLowPowerExit, .clearInterrupt irqRxDataDone] ++ writeStartEvents ++
      [.writeHeader s.par.setMaxReturn (lowByte maxLen) (highByte maxLen) false] ++
      (if asked then [.fifoWritable false] else [])
    callers := s.callers.set s.cur
      { c with
        port := none
        stack := [.read { ReadFrame.start ty addr maxLen cap buf with
          ctl := ⟨.r4, .ok⟩
          sub := some (writeAtWait s s.par.setMaxReturn (lowByte maxLen) (highByte maxLen) 0 none) }] } }

/-- The state once an `Idle` agent's READ has sent its first request packet without waiting (rules R203, R204). -/
def firstRequestSent (s : State) (maxLen : Half) : State :=
  { s.answered with
    sigPh := ⟨false⟩, sigRd := ⟨false⟩, wd := s.armedWd
    hist := s.hist ++ [.blockLowPowerExit, .clearInterrupt irqRxDataDone] ++ writeStartEvents ++
      [.writeHeader s.par.setMaxReturn (lowByte maxLen) (highByte maxLen) false, .fifoWritable true,
        .unblockLowPowerExit] }

/-- The state a READ `f` leaves that sends its second request packet, in ON with the lock free, whatever the packet's class
(rule R205): it ends with `Unsupported`, blocks in the wait of that packet, or goes on to wait for the response. -/
def afterSecondRequest (s : State) (c : Caller) (f : ReadFrame) (rest : List Frame) : State :=
  let started : State :=
    { s with
      sigPh := ⟨false⟩, wd := s.armedWd
      hist := s.hist ++ writeStartEvents ++ packetEvents s f.ty f.d0 0 0 none }
  if s.par.classify f.ty = .unrecognized then
    { started with
      hist := started.hist ++ [.unblockLowPowerExit, .unblockLowPowerExit]
      callers := s.returnedCallers c rest .unsupported }
  else if waitDecided s f.ty f.d0 0 none then
    { started with
      lock := .held s.cur
      callers := s.callers.set s.cur
        { c with
          stack := .read { f with
            ctl := ⟨.r5, .ok⟩, t0 := s.now, sub := some (writeAtWait s f.ty f.d0 0 0 none) } :: rest } }
  else if asBool s.answer then
    { started with
      answers := s.answered.answers, answerDraws := s.answered.answerDraws
      hist := started.hist ++ [.fifoWritable true, .unblockLowPowerExit]
      callers := s.callers.set s.cur
        { c with stack := .read { f with ctl := ⟨.r6, .ok⟩, t0 := s.now, sub := none } :: rest } }
  else
    { started with
      lock := .held s.cur, answers := s.answered.answers, answerDraws := s.answered.answerDraws
      hist := started.hist ++ [.fifoWritable false]
      callers := s.callers.set s.cur
        { c with
          stack := .read { f with
            ctl := ⟨.r5, .ok⟩, t0 := s.now, sub := some (writeAtWait s f.ty f.d0 0 0 none) } :: rest } }

/-- A WRITE whose wait ends in the tie of rule R237, as the environment answers. -/
def afterTie (s : State) (f : WriteFrame) : WriteFrame :=
  { f with ctl := f.ctl.goto .w9a, wres := if asBool s.answer then .timedOut else .signaled }

/-! ## Responses (rules R209 to R217) -/

/-- A response packet as the environment answers it: its first word and the data words of a long response. -/
structure RxPacket where
  first : Nat
  data  : List Nat

/-- The class of a response packet (rule R106). -/
def RxPacket.cls (p : Params) (k : RxPacket) : TagClass := p.rxTagClass (rxTag (asWord k.first))

/-- A packet that raises no error and has the data words its class and count call for (rules R211, R212, R214). -/
def RxPacket.sound (p : Params) (k : RxPacket) : Prop :=
  match k.cls p with
  | .eot | .short1 | .short2 => k.data = []
  | .long => k.data.length = wordsFor (rxCount (asWord k.first)).toNat
  | .ackErr | .other => False

/-- The bytes a packet appends (rules R211, R212, R214). -/
def RxPacket.bytes (p : Params) (k : RxPacket) : List Byte :=
  match k.cls p with
  | .short1 => [rxData0 (asWord k.first)]
  | .short2 => [rxData0 (asWord k.first), rxData1 (asWord k.first)]
  | .long => responseBytes k.data (rxCount (asWord k.first)).toNat
  | .eot | .ackErr | .other => []

/-- The events of draining a packet: one pop for each of its words (rules R209, R214). -/
def RxPacket.events (k : RxPacket) : List Event := (k.first :: k.data).map fun w => .readRxFifo (asWord w)

/-- Several packets in FIFO order, the FIFO reported not empty after each but the last: the environment's answers. -/
def rxAnswers : List RxPacket → List Nat
  | [] => []
  | [k] => k.first :: k.data ++ [1]
  | k :: l => k.first :: k.data ++ [0] ++ rxAnswers l

/-- The events of draining them (rules R209, R214, R216). -/
def rxEvents : List RxPacket → List Event
  | [] => []
  | [k] => k.events ++ [.rxFifoEmpty true]
  | k :: l => k.events ++ [.rxFifoEmpty false] ++ rxEvents l

/-- What is appended and how many bytes are kept (rules R208, R213): the result of a READ that received these bytes. -/
def countOf (cap : Half) (bytes : List Byte) : Result := .okCount (BitVec.ofNat 17 (min bytes.length cap.toNat))

/-- Enough micro-steps to drain these packets. -/
def drainSteps (l : List RxPacket) : Nat := 20 + (l.map fun k => 20 + 8 * k.data.length).sum

/-! ## The handler run (rules R263 to R270) -/

/-- The events of a handler run that latched `p`, with the vsync timestamp `ts` if it is drawn. -/
def handlerEvents (p : Word) (ts : Nat) : List Event :=
  [.readInterruptPending p] ++ (if pendingBit p 3 then [.dump .rxEccError] else []) ++
    (if pendingBit p 5 then [.vsyncWake ts] else []) ++ [.clearInterrupt p]

/-- The state a handler run leaves that latched `p` with nothing in between (rules R263 to R271). -/
def afterHandler (s : State) (p : Word) : State :=
  { (if pendingBit p 5 then s.answered.answered else s.answered) with
    wd := if pendingBit p 0 then s.disarmedWd else s.wd
    sigPh := if pendingBit p 0 then ⟨true⟩ else s.sigPh
    sigRd := if pendingBit p 1 then ⟨true⟩ else s.sigRd
    underrun := if pendingBit p 4 then s.underrun + 1 else s.underrun
    hist := s.hist ++ handlerEvents p s.answered.answer
    irq := ⟨.idle, p⟩ }

/-! ## Hardware access (rules R77, R296) -/

/-- A register primitive or a dump: what rule R296 forbids without power. -/
def Event.touchesRegisters : Event → Bool
  | .act _ | .panel _ | .blockLowPowerExit | .unblockLowPowerExit | .vsyncWake _ => false
  | .writeHeader .. | .writePayload _ | .readRxFifo _ | .headerFifoEmpty _ | .fifoWritable _ | .rxFifoEmpty _
  | .clearInterrupt _ | .setInterruptMask _ | .decodeRxError .. | .pllStable _ | .readInterruptPending _ | .dump _ => true

/-- A primitive or callback that no rule has the core call (rules R62, R301): `set_interrupt_mask` and the six callbacks
without an invocation point. -/
def Event.neverCalled : Event → Bool
  | .setInterruptMask _ => true
  | .panel .probe | .panel .dozeSuspend | .panel .suspend | .panel .dump | .panel .notify
  | .panel .setErrorCallback => true
  | _ => false

/-- One of the six state-machine operations (rules R119, R130). -/
def isTransition : Instr → Bool
  | .enable | .disable | .enterLp | .exitLp | .doze | .dozeSuspend => true
  | _ => false

/-- A request with a reserved operation code (rule R93). -/
def isReserved : Instr → Bool
  | .reserved6 _ _ | .reserved7 _ _ | .reservedA _ _ | .reservedB _ _ | .reservedC _ _ | .reservedD _ _
  | .reservedE _ _ | .reservedF _ _ => true
  | _ => false

/-- A reserved operation code of an implementation: 0x4 and 0x5 too, where the capability is absent (rules R93, R157). -/
def isReservedCode (p : Params) (op : BitVec 4) : Bool :=
  match op.toNat with
  | 0x6 | 0x7 | 0xA | 0xB | 0xC | 0xD | 0xE | 0xF => true
  | 0x4 | 0x5 => !p.hasDoze
  | _ => false

/-! ## Invariants of a run -/

/-- No locked section is in progress: the three power flags say whether the link is up, and an armed watchdog implies ON
(rules R163, R246). -/
def State.settled (s : State) : Prop :=
  s.pdActive = s.link.onClass ∧ s.phyOn = s.link.onClass ∧ s.irqEnabled = s.link.onClass ∧
    (s.wd.armed = true → s.link = .on)

/-- The power, PHY and interrupt-line flags have these values and the watchdog is disarmed. -/
def State.flagsAre (s : State) (pd phy irq : Bool) : Prop :=
  s.pdActive = pd ∧ s.phyOn = phy ∧ s.irqEnabled = irq ∧ s.wd.armed = false

/-- What holds of the shared state while a bring-up holds the lock, at each label; `False` where it does not hold it. -/
def BuFrame.duringLock (f : BuFrame) (s : State) : Prop :=
  match f.ctl.label with
  | .bu0 | .bu1 | .bu28 | .bu29 => False
  | .bu2 | .bu27 => s.settled
  | .bu3 => s.settled ∧ f.prev = s.link
  | .bu4 => s.settled ∧ f.prev = s.link
  | .bu4a => s.settled ∧ f.prev = s.link ∧ s.link.onClass = true
  | .bu4b => s.flagsAre true true true
  | .bu5 => s.flagsAre false false false
  | .bu6 | .bu7 => s.flagsAre true false false
  | .bu8 | .bu9 | .bu10 | .bu11 | .bu12 | .bu13 | .bu14 | .bu15 | .bu16 | .bu17 | .bu18 | .bu19 | .bu20 | .bu24
  | .bu25 => s.flagsAre true true false
  | .bu26 => s.flagsAre true true true

/-- What holds of the shared state while a teardown holds the lock, at each label. -/
def TdFrame.duringLock (f : TdFrame) (s : State) : Prop :=
  match f.ctl.label with
  | .td0 | .td1 | .td12 => False
  | .td2 | .td11 => s.settled
  | .td3 => s.settled ∧ f.prev = s.link
  | .td3a | .td3b => s.settled ∧ s.link.offClass = true
  | .td3c => s.settled
  | .td4 => s.settled ∧ f.prev = s.link
  | .td5 => s.flagsAre f.prev.onClass f.prev.onClass f.prev.onClass
  | .td6 | .td7 => s.flagsAre f.prev.onClass f.prev.onClass f.prev.onClass ∧ s.link = f.target
  | .td8 => s.flagsAre f.prev.onClass f.prev.onClass false ∧ s.link = f.target
  | .td9 | .td10 => s.flagsAre f.prev.onClass false false ∧ s.link = f.target

/-- What holds of the shared state while an ENTER_LP holds the lock, at each label. -/
def ElFrame.duringLock (f : ElFrame) (s : State) : Prop :=
  match f.ctl.label with
  | .el1 | .el11 => False
  | .el2 | .el10 => s.settled
  | .el3 => s.settled ∧ s.link = .on
  | .el4 => s.flagsAre true true true
  | .el5 => s.flagsAre true true true ∧ s.link = .ulps
  | .el6 | .el7 | .el7a | .el8 => s.flagsAre true true false ∧ s.link = .ulps
  | .el9 => s.flagsAre true false false ∧ s.link = .ulps

/-- What holds of the shared state while an EXIT_LP holds the lock, at each label. -/
def XlFrame.duringLock (f : XlFrame) (s : State) : Prop :=
  match f.ctl.label with
  | .xl1 | .xl20 => False
  | .xl2 | .xl19 => s.settled
  | .xl3 => s.settled ∧ s.link = .ulps
  | .xl4 | .xl5 => s.flagsAre true false false
  | .xl6 | .xl7 | .xl8 | .xl9 | .xl10 | .xl11 | .xl12 | .xl13 | .xl14 | .xl15 | .xl16 | .xl17 =>
    s.flagsAre true true false
  | .xl18 => s.flagsAre true true true

/-- What holds of the shared state while a WRITE holds the lock, at each label. -/
def WriteFrame.duringLock (f : WriteFrame) (s : State) : Prop :=
  match f.ctl.label with
  | .w0 | .w1 | .w12 | .w13 => False
  | .w2 | .w11 => s.settled
  | .w3 | .w4 | .w5 | .w6 | .w7 | .w7s | .w7r | .w7l | .w7h | .w7u | .w8 | .w8a | .w9 | .w9a | .w10 | .w10a | .w10b
  | .w10c | .w10d => s.settled ∧ s.link = .on

/-- What holds of the shared state while a READ, or the WRITE nested in it, holds the lock, at each label. -/
def ReadFrame.duringLock (f : ReadFrame) (s : State) : Prop :=
  match f.ctl.label with
  | .r4 | .r5 =>
    match f.sub with
    | none => False
    | some g => g.duringLock s
  | .r0 | .r1 | .r2 | .r3 | .r6 | .r6a | .r7 | .r19 | .r20 => False
  | .r8 | .r9 | .r10 | .r10a | .r10b | .r10c | .r10e | .r10s | .r10t | .r10t2 | .r10l | .r10m | .r10n | .r10p | .r10o
  | .r10q | .r15 | .r16 | .r16a | .r17 | .r18 => s.settled

/-- What holds of the shared state while an operation holds the lock; `False` where it does not hold it. -/
def Frame.duringLock (fr : Frame) (s : State) : Prop :=
  match fr with
  | .enable f | .doze f => f.duringLock s
  | .disable f | .dozeSuspend f => f.duringLock s
  | .enterLp f => f.duringLock s
  | .exitLp f => f.duringLock s
  | .write f => f.duringLock s
  | .read f => f.duringLock s

/-- A WRITE at this label is inside its locked section. -/
def WLabel.locked : WLabel → Bool
  | .w0 | .w1 | .w12 | .w13 => false
  | _ => true

/-- The operation is inside its locked section (rules R72, R132). -/
def Frame.locked : Frame → Bool
  | .enable f | .doze f => match f.ctl.label with
    | .bu0 | .bu1 | .bu28 | .bu29 => false
    | _ => true
  | .disable f | .dozeSuspend f => match f.ctl.label with
    | .td0 | .td1 | .td12 => false
    | _ => true
  | .enterLp f => match f.ctl.label with
    | .el1 | .el11 => false
    | _ => true
  | .exitLp f => match f.ctl.label with
    | .xl1 | .xl20 => false
    | _ => true
  | .write f => f.ctl.label.locked
  | .read f => match f.ctl.label with
    | .r4 | .r5 => match f.sub with
      | none => false
      | some g => g.ctl.label.locked
    | .r0 | .r1 | .r2 | .r3 | .r6 | .r6a | .r7 | .r19 | .r20 => false
    | _ => true

/-- The latch `target` of an operation in flight holds the operation's own target once it is written (rule R130). -/
def Frame.targetSet : Frame → Prop
  | .enable f => f.ctl.label ≠ .bu0 → f.target = .on
  | .doze f => f.ctl.label ≠ .bu0 → f.target = .doze
  | .disable f => f.ctl.label ≠ .td0 → f.target = .off
  | .dozeSuspend f => f.ctl.label ≠ .td0 → f.target = .dozeSuspend
  | .enterLp _ | .exitLp _ | .write _ | .read _ => True

/-- Every operation in flight has its own target (rule R130). -/
def State.targetsSet (s : State) : Prop := ∀ c ∈ s.callers, ∀ fr ∈ c.stack, fr.targetSet

/-- The lock is held by an agent exactly while one operation of that agent is inside its locked section (rules R29, R72,
R132). -/
def State.lockAccounted (s : State) : Prop :=
  (∀ a c, s.callers[a]? = some c → c.stack.countP Frame.locked = if s.lock = .held a then 1 else 0) ∧
    ∀ a, s.lock = .held a → a < s.callers.length

/-- The shared state is as the lock's holder, if any, is to have it at its label (rules R163, R246). -/
def State.duringLockHolds (s : State) : Prop :=
  match s.lock with
  | .free => s.settled
  | .held a => ∃ c fr, s.callers[a]? = some c ∧ fr ∈ c.stack ∧ fr.duringLock s

/-- The handler spinlock is held exactly during a run, and only while the line is enabled (rules R37, R261). -/
def State.handlerAccounted (s : State) : Prop :=
  (s.irqBusy = true ↔ s.irq.label ≠ .idle) ∧ (s.irqBusy = true → s.irqEnabled = true)

/-- The invariant of a run. -/
def State.Inv (s : State) : Prop :=
  s.targetsSet ∧ s.lockAccounted ∧ s.duringLockHolds ∧ s.handlerAccounted

/-- A turn of one agent, repeated `n` times with nothing in between. -/
def repeatTurn (turn : State → Host.Outcome State Fault Refusal) : Nat → State → Host.Outcome State Fault Refusal
  | 0, s => .next s
  | n + 1, s =>
    match turn s with
    | .next s' => repeatTurn turn n s'
    | .fault r => .fault r
    | .refused r => .refused r

end Sys2Proof.Machine
end

