-- ==== Sys2Proof/Certificates/Slice0/Obligations.lean ====
section
/-! DEFINITION. The statements about the core for the provers. A name says what its statement states; a docstring says which
rules of spec/ it formalises, and which of them are the spec's own decisions (D<n>). -/

section

open Sys2Proof Sys2Proof.Machine

/-! ## Encoding (spec/30) -/

/-- The five encoding examples of rule R111. -/
def Obligations.SpecWordsDecode : Prop :=
  decode ⟨0x00000000, 0, none⟩ = .ok .enable ∧
  decode ⟨0x00000001, 0, none⟩ = .ok .disable ∧
  decode ⟨0x00290508, 0, none⟩ = .ok (.write 0x05 0x29 0x00 0 none) ∧
  (∀ base, decode ⟨0x00003908, 0x00000005, some ⟨base, 5⟩⟩ = .ok (.write 0x39 0x00 0x00 5 (some ⟨base, 5⟩))) ∧
  ∀ base, decode ⟨0x00040609, 0x00040003, some ⟨base, 4⟩⟩ = .ok (.read 0x06 0x04 3 4 (some ⟨base, 4⟩))

/-- No bit of any operation is lost in its descriptor (rules R91, R92, R93, R96, R112). -/
def Obligations.DecodeOfEncode : Prop := ∀ i : Instr, decode (encode i) = .ok i

/-- A descriptor that decodes is the descriptor of what it decodes to: both words, and the buffer of a command-channel
operation (rules R91, R96). -/
def Obligations.EncodeOfDecode : Prop :=
  ∀ (r : Request) (i : Instr), decode r = .ok i →
    (encode i).req0 = r.req0 ∧ (encode i).req1 = r.req1 ∧
      (i.opcode = 0x8 ∨ i.opcode = 0x9 → (encode i).buf = r.buf)

/-- Exactly the requests with a nonzero field that must be zero are rejected. A reserved code has no such field, and without the
capability 0x4 and 0x5 are reserved: then they are read as DOZE and DOZE_SUSPEND, whose meanings answer `Unsupported` (rules
R91, R93, R157, R219, R298; D40, I11). A WRITE's `D0`, `D1` and `LEN` are never malformed (rules R97, R186;
notes/assumptions/18), nor are a reserved code's other bits (notes/assumptions/15, 16). -/
def Obligations.MalformedExactly : Prop :=
  ∀ (p : Params) (r : Request),
    ((∃ e, decodeRequest p r = .error e) ↔
      ((r.op.toNat ≤ 3 ∨ (r.op.toNat ≤ 5 ∧ p.hasDoze = true)) ∧
        (r.rsv0 ≠ 0 ∨ r.ty ≠ 0 ∨ r.d0 ≠ 0 ∨ r.d1 ≠ 0 ∨ r.len ≠ 0 ∨ r.cap ≠ 0)) ∨
      (r.op = 0x8 ∧ (r.rsv0 ≠ 0 ∨ r.cap ≠ 0)) ∨
      (r.op = 0x9 ∧ (r.rsv0 ≠ 0 ∨ r.d1 ≠ 0))) ∧
    (p.hasDoze = false → (r.op = 0x4 → decodeRequest p r = .ok .doze) ∧ (r.op = 0x5 → decodeRequest p r = .ok .dozeSuspend)) ∧
    (∀ i, decode r = .ok i → decodeRequest p r = .ok i)

/-- The result word, each field at its place and with its numbers, and the numbers of the link states (rules R94, R95; D2, D3,
D34). -/
def Obligations.ResultWordFields : Prop :=
  (∀ r : Result, r.word.extractLsb' 0 4 = r.status ∧ r.word.extractLsb' 4 4 = 0 ∧ r.word.getLsbD 8 = r.hasErr ∧
    r.word.extractLsb' 9 7 = 0 ∧ r.word.extractLsb' 16 16 = r.count) ∧
  (∀ n : Half, (Result.okCount (n.setWidth 17)).word = n ++ (0 : Half)) ∧
  (∀ e, (Result.protocolError (some e)).word = 0x00000103) ∧ (Result.protocolError none).word = 0x00000003 ∧
  Result.ok.word = 0 ∧ Result.notReady.word = 1 ∧ Result.timeout.word = 2 ∧ Result.busy.word = 4 ∧
  Result.invalidState.word = 5 ∧ Result.unsupported.word = 6 ∧
  LinkState.init.code = 0 ∧ LinkState.on.code = 1 ∧ LinkState.doze.code = 2 ∧ LinkState.ulps.code = 3 ∧
  LinkState.dozeSuspend.code = 4 ∧ LinkState.off.code = 5

/-- Byte `j` of payload word `k` is byte `4k+j` of the payload, and zero beyond it; so the payload is read back from the
words (rules R65, R102, R191 (2); D24). -/
def Obligations.PayloadWordsHoldThePayload : Prop :=
  ∀ (s : State) (buf : Option BufHandle) (len : Nat),
    (∀ k j, j < 4 → byteOf (payloadWord s buf len k) j = if 4 * k + j < len then s.memRead buf (4 * k + j) else 0) ∧
    ∀ i, i < len → i / 4 < wordsFor len ∧ byteOf (payloadWord s buf len (i / 4)) (i % 4) = s.memRead buf i

/-! ## The step (spec/10 R23, spec/20 R70, spec/60 R298) -/

/-- What a turn of a caller agent executes. A request at the port of an agent that accepts it is decoded and executed; else
the operation in flight goes on; a malformed descriptor is refused; an `Idle` agent with nothing presented, and an index that
is no agent's, do nothing. Around the operation the step only takes the turn and gives it to the agent (rules R23, R70, R90,
R298, R301; the turn is the model's, notes/assumptions/2 and 4). -/
def Obligations.StepRunsTheDecodedOperation : Prop :=
  ∀ (s : State) (a more : Nat) (later : List Turn), s.fault = none → s.turns = .caller a more :: later →
    (∀ c r i, s.callers[a]? = some c → c.accepts = true → c.port = some r →
      decodeRequest s.par r = .ok i → step s = exec i ((s.setTurns later s.turnDraws).focus a more)) ∧
    (∀ c f rest, s.callers[a]? = some c → c.accepts = false → c.stack = f :: rest →
      step s = exec f.instr ((s.setTurns later s.turnDraws).focus a more)) ∧
    (∀ c r e, s.callers[a]? = some c → c.accepts = true → c.port = some r →
      decodeRequest s.par r = .error e → step s = .refused (.malformed e)) ∧
    (∀ c, s.callers[a]? = some c → c.stack = [] → c.port = none →
      step s = .next (s.setTurns later s.turnDraws)) ∧
    (s.callers[a]? = none → step s = .next (s.setTurns later s.turnDraws))

/-- The turns that are no caller agent's, the host's two inputs among them, and the turn that is drawn when none is listed
(rules R61, R70, R90; notes/assumptions/1, 2). That a host store takes effect while an operation has the buffer, where rule R61
gives the host no guarantee, is the model's choice (notes/assumptions/10). -/
def Obligations.StepRunsTheOtherAgents : Prop :=
  ∀ s : State, s.fault = none →
    (∀ later, s.turns = .irq :: later → step s = irqTurn (s.setTurns later s.turnDraws)) ∧
    (∀ later, s.turns = .wdt :: later → step s = wdtTurn (s.setTurns later s.turnDraws)) ∧
    (∀ later, s.turns = .tick :: later →
      step s = .next ((s.setTurns later s.turnDraws).setNow (s.now + 1))) ∧
    (∀ later a r, s.turns = .request a r :: later →
      step s = presentRequest a r (s.setTurns later s.turnDraws)) ∧
    (∀ later x v, s.turns = .hostStore x v :: later →
      step s = .next ((s.setTurns later s.turnDraws).setMem (Memory.write s.mem x v))) ∧
    (s.turns = [] → step s = runTurn (Config.freeTurn s.turnDraws) (s.setTurns [] (s.turnDraws + 1)))

/-- A request is presented to an agent that is `Idle`, or inside a panel callback, and has none waiting; any other is
refused, with no result and no event (rules R90, R298, R301). That one request waits at the port, so that a second is refused, is
the model's (notes/assumptions/1); so is that a callback under the lock may request as a wake callback may
(notes/assumptions/22). -/
def Obligations.SecondRequestRefused : Prop :=
  ∀ (s : State) (a : Nat) (r : Request) (c : Caller), s.callers[a]? = some c →
    (c.port = none → c.atRest = true →
      runTurn (.request a r) s = .next { s with callers := s.callers.set a { c with port := some r } }) ∧
    (c.port.isSome = true ∨ c.atRest = false → runTurn (.request a r) s = .refused .inFlight)

/-- A request that an agent accepts is refused exactly when its operands have no meaning (rules R186, R219, R298; D40,
D51); a request while another operation is in flight is refused too. -/
def Obligations.RefusedExactlyWithoutMeaning : Prop :=
  ∀ (i : Instr) (s : State) (c : Caller), s.callers[s.cur]? = some c →
    (c.accepts = true → ((∃ r, exec i s = .refused r) ↔ i.wellFormed s.par = false)) ∧
    (∀ f rest, c.accepts = false → c.stack = f :: rest → f.op ≠ i.opcode → exec i s = .refused .inFlight)

/-! ## Reset (spec/10 R45, spec/70 R320, R321) -/

/-- The values rule R45 gives for attach. Only that of `S.state` is the source's; the others are the spec's decision D39. The
values the model chose (notes/assumptions/11) are not stated. -/
def Obligations.ResetState : Prop :=
  State.reset.link = .init ∧ State.reset.lock = .free ∧ State.reset.sigPh.done = false ∧
  State.reset.sigRd.done = false ∧ State.reset.wd.armed = false ∧ State.reset.underrun = 0 ∧
  State.reset.irqEnabled = false ∧ State.reset.pdActive = false ∧ State.reset.phyOn = false ∧
  State.reset.irqBusy = false ∧ State.reset.hist = [] ∧ State.reset.fault = none ∧
  (∀ c ∈ State.reset.callers, c.stack = []) ∧ 1 ≤ State.reset.callers.length ∧ State.reset.irq.label = .idle

/-- The invariant holds after attach, and the memory is canonical there (rules R45, R61, R163). -/
def Obligations.ResetMeetsTheInvariant : Prop := State.reset.Inv ∧ Memory.wf State.reset.mem = true

/-! ## Invariants of every step -/

/-- Every step keeps the invariant, and with it: while the lock is free the PHY and the interrupt line are on exactly in an
ON-class state, and an armed watchdog implies ON (rules R163, R246); and at any moment an armed watchdog and an enabled line
imply power (rules R246, R262). -/
def Obligations.StepKeepsTheInvariant : Prop :=
  ∀ s t : State, s.Inv → step s = .next t →
    t.Inv ∧
    (t.lock = .free → t.phyOn = t.link.onClass ∧ t.irqEnabled = t.link.onClass ∧ (t.wd.armed = true → t.link = .on)) ∧
    (t.wd.armed = true → t.pdActive = true) ∧ (t.irqEnabled = true → t.pdActive = true)

/-- The one fault of rule R296 is reached in READ alone: not from WRITE, the handler, the watchdog or a transition (rules
R165, R246, R262, R296). -/
def Obligations.FaultsOnlyInRead : Prop :=
  ∀ (s : State) (r : Fault), s.Inv → s.fault = none → step s = .fault r →
    ∃ a more c ty addr maxLen cap buf, s.nextTurn = .caller a more ∧ s.callers[a]? = some c ∧
      c.nextInstr s.par = some (.ok (.read ty addr maxLen cap buf))

/-- Two locked sections never overlap: of all operations in flight at most one is inside its locked section, so at most one
waits for the header-empty signal (rules R74 (a), R188). -/
def Obligations.LockedSectionsNeverOverlap : Prop :=
  ∀ s : State, s.Inv → ∀ a b c d f g, s.callers[a]? = some c → s.callers[b]? = some d → f ∈ c.stack → g ∈ d.stack →
    f.locked = true → g.locked = true → a = b ∧ f = g ∧ s.lock = .held a

/-- Every step keeps the memory canonical: the caller buffers as one memory (rule R61; notes/assumptions/9). -/
def Obligations.StepKeepsMemoryCanonical : Prop :=
  ∀ s t : State, Memory.wf s.mem = true → step s = .next t → Memory.wf t.mem = true

/-- No step writes the configuration, the link index, the parameters or the fault, and agents neither appear nor vanish
(rules R7, R18, R40, R306). -/
def Obligations.ConfigurationNeverWritten : Prop :=
  ∀ s t : State, step s = .next t →
    t.cfg = s.cfg ∧ t.linkIndex = s.linkIndex ∧ t.par = s.par ∧ t.fault = s.fault ∧
      t.callers.length = s.callers.length

/-- A step only adds to the history, and never a primitive or callback that no rule calls (rules R39, R62, R301; D42, D46). -/
def Obligations.HistoryOnlyGrows : Prop :=
  ∀ s t : State, step s = .next t → ∃ es, t.hist = s.hist ++ es ∧ ∀ e ∈ es, e.neverCalled = false

/-- A single micro-step touches the registers only with power on (rules R77, R296). -/
def Obligations.RegistersTouchedOnlyWithPower : Prop :=
  ∀ s t : State, (∀ a more, s.nextTurn = .caller a more → more = 0) → step s = .next t →
    ∃ es, t.hist = s.hist ++ es ∧ ∀ e ∈ es, e.touchesRegisters = true → s.pdActive = true

/-- The link state is written only by a caller agent that holds the lock, and keeps it through that micro-step (rule R26). -/
def Obligations.LinkStateWrittenOnlyUnderLock : Prop :=
  ∀ s t : State, s.Inv → (∀ a more, s.nextTurn = .caller a more → more = 0) → step s = .next t → t.link ≠ s.link →
    ∃ a, s.nextTurn = .caller a 0 ∧ s.lock = .held a ∧ t.lock = .held a

/-- There is no way back to INIT (rules R28, R320). -/
def Obligations.InitIsNeverReentered : Prop :=
  ∀ s t : State, s.targetsSet → step s = .next t → s.link ≠ .init → t.link ≠ .init

/-- Time and the under-run counter: time never runs back, one turn moves it by at most one tick, and only the handler writes
the counter (rules R33, R38, R231, R268). -/
def Obligations.TimeAndUnderrunCounter : Prop :=
  ∀ s t : State, step s = .next t →
    (t.now = s.now ∨ (t.now = s.now + 1 ∧ s.nextTurn = .tick)) ∧
    (t.underrun = s.underrun ∨ (t.underrun = s.underrun + 1 ∧ s.nextTurn = .irq))

/-- The lock is not recursive and is released by its holder alone: while an agent holds it, no turn of another agent changes
it (rules R29, R71, R302). -/
def Obligations.OnlyTheHolderReleasesTheLock : Prop :=
  ∀ (s t : State) (b : Nat), s.lock = .held b → (∀ more, s.nextTurn ≠ .caller b more) → step s = .next t →
    t.lock = .held b

/-! ## What every operation leaves alone (spec/10 R22, spec/20 R60, R61) -/

/-- Frame of every operation: the other agents, caller, interrupt and watchdog, the time, the counter, the handler spinlock,
the configuration, the parameters and the fault are untouched (rules R22, R33, R37, R38, R40). -/
def Obligations.EveryOperationFrame : Prop :=
  ∀ (i : Instr) (s t : State), exec i s = .next t →
    (∀ b, b ≠ s.cur → t.callers[b]? = s.callers[b]?) ∧
    t.irq = s.irq ∧ t.wdt = s.wdt ∧ t.now = s.now ∧ t.underrun = s.underrun ∧ t.irqBusy = s.irqBusy ∧
    t.cfg = s.cfg ∧ t.linkIndex = s.linkIndex ∧ t.par = s.par ∧ t.fault = s.fault ∧
    t.turns = s.turns ∧ t.turnDraws = s.turnDraws ∧ t.cur = s.cur ∧ t.quantum = s.quantum

/-- Frame of the six transitions: no signal, no deadline and no byte of memory is written, and the watchdog is never armed
(rules R133, R144, R149, R153, R308). -/
def Obligations.TransitionFrame : Prop :=
  ∀ (i : Instr) (s t : State), isTransition i = true → exec i s = .next t →
    t.sigPh = s.sigPh ∧ t.sigRd = s.sigRd ∧ t.wd.deadline = s.wd.deadline ∧
    (t.wd.armed = true → s.wd.armed = true) ∧ t.mem = s.mem

/-- Frame of WRITE: it never writes the link state, the power, PHY and line flags, the read-ready signal or a byte of memory
(rules R61, R170). -/
def Obligations.WriteFrameRule : Prop :=
  ∀ (ty d0 d1 : Byte) (len : Half) (buf : Option BufHandle) (s t : State),
    exec (.write ty d0 d1 len buf) s = .next t →
    t.link = s.link ∧ t.pdActive = s.pdActive ∧ t.phyOn = s.phyOn ∧ t.irqEnabled = s.irqEnabled ∧
    t.sigRd = s.sigRd ∧ t.mem = s.mem

/-- Frame of READ: it never writes the link state or the power, PHY and line flags, and of the memory only the bytes
`out[0]` to `out[cap - 1]` (rules R61, R200, R213). -/
def Obligations.ReadFrameRule : Prop :=
  ∀ (ty addr : Byte) (maxLen cap : Half) (buf : Option BufHandle) (s t : State),
    exec (.read ty addr maxLen cap buf) s = .next t →
    t.link = s.link ∧ t.pdActive = s.pdActive ∧ t.phyOn = s.phyOn ∧ t.irqEnabled = s.irqEnabled ∧
    ∀ x, (∀ i, i < cap.toNat → x ≠ bufAddr buf i) → Memory.read t.mem x = Memory.read s.mem x

/-- Only `lock()`, the two waits and `IrqLineDisable` can keep an operation from its next micro-step, and a READ that would end
under its own agent's lock (rules R76, R114, R131, R297, R336; notes/assumptions/22). -/
def Obligations.OnlyLockWaitAndLineDisableBlock : Prop :=
  (∀ goal a f s, bringUp goal a f s = .blocked → f.ctl.label = .bu1 ∧ s.lock ≠ .free) ∧
  (∀ goal a f s, tearDown goal a f s = .blocked →
    (f.ctl.label = .td1 ∧ s.lock ≠ .free) ∨ (f.ctl.label = .td7 ∧ s.irqBusy = true)) ∧
  (∀ a f s, enterLpStep a f s = .blocked →
    (f.ctl.label = .el1 ∧ s.lock ≠ .free) ∨ (f.ctl.label = .el5 ∧ s.irqBusy = true)) ∧
  (∀ a f s, exitLpStep a f s = .blocked → f.ctl.label = .xl1 ∧ s.lock ≠ .free) ∧
  (∀ a f s, writeStep a f s = .blocked →
    (f.ctl.label = .w1 ∧ s.lock ≠ .free) ∨
    (f.ctl.label = .w9 ∧ s.sigPh.done = false ∧ s.now < f.t0 + s.par.wrTimeout.val)) ∧
  (∀ a f s, readStep a f s = .blocked →
    (f.ctl.label = .r7 ∧ s.lock ≠ .free) ∨
    (f.ctl.label = .r6 ∧ s.sigRd.done = false ∧ s.now < f.t0 + s.par.rdTimeout.val) ∨
    (s.lock = .held a ∧ (f.ctl.label = .r1 ∧ s.link = .off ∨ f.ctl.label = .r3 ∧ s.pdActive = false)) ∨
    ((f.ctl.label = .r4 ∨ f.ctl.label = .r5) ∧ ∃ g, f.sub = some g ∧ writeStep a g s = .blocked)) ∧
  (∀ f s, irqStep f s = .blocked → f.label = .idle ∧ ¬ (s.irqEnabled = true ∧ s.irqBusy = false))

/-! ## Transitions (spec/40). A turn of 31 micro-steps or more carries a transition through with nothing in between. -/

/-- ENABLE and DOZE at their own target: no event, nothing written (the lock is free again), `Ok` (rule R134). -/
def Obligations.BringUpAtTargetIsNoOp : Prop :=
  ∀ (s : State) (c : Caller), s.idleAs c → s.lock = .free → 30 ≤ s.quantum →
    (s.link = .on → exec .enable s = .next { s with callers := s.answeredCallers c .ok }) ∧
    (s.link = .doze → s.par.hasDoze = true → exec .doze s = .next { s with callers := s.answeredCallers c .ok })

/-- ENABLE and DOZE from every state; without the capability DOZE is a reserved code (rules R93, R133 to R143, R147, R157 to
R159; D7 to D14). -/
def Obligations.BringUpCompletes : Prop :=
  ∀ (s : State) (c : Caller), s.idleAs c → s.lock = .free → 30 ≤ s.quantum →
    exec .enable s = .next (afterBringUp .on s c) ∧
    exec .doze s =
      if s.par.hasDoze then .next (afterBringUp .doze s c)
      else .next { s with callers := s.answeredCallers c .unsupported }

/-- DISABLE and DOZE_SUSPEND from every state, when no handler run is in progress; without the capability DOZE_SUSPEND is a
reserved code (rules R93, R144 to R147, R157, R160 to R162; D7 to D10, D15). -/
def Obligations.TearDownCompletes : Prop :=
  ∀ (s : State) (c : Caller), s.idleAs c → s.lock = .free → s.irqBusy = false → 30 ≤ s.quantum →
    exec .disable s = .next (afterTearDown .off s c) ∧
    exec .dozeSuspend s =
      if s.par.hasDoze then .next (afterTearDown .dozeSuspend s c)
      else .next { s with callers := s.answeredCallers c .unsupported }

/-- ENTER_LP from ON and EXIT_LP from ULPS (rules R149 to R151, R153 to R155; D9, D16, D17). -/
def Obligations.LowPowerCompletes : Prop :=
  ∀ (s : State) (c : Caller), s.idleAs c → s.lock = .free → 30 ≤ s.quantum →
    (s.link = .on → s.pdActive = true → s.irqBusy = false → exec .enterLp s = .next (afterEnterLp s c)) ∧
    (s.link = .ulps → exec .exitLp s = .next (afterExitLp s c))

/-- ENTER_LP outside ON and EXIT_LP outside ULPS: `InvalidState`, no event and nothing written (rule R152). -/
def Obligations.LowPowerFromWrongState : Prop :=
  ∀ (s : State) (c : Caller), s.idleAs c → s.lock = .free → 30 ≤ s.quantum →
    (s.link ≠ .on → exec .enterLp s = .next { s with callers := s.answeredCallers c .invalidState }) ∧
    (s.link ≠ .ulps → exec .exitLp s = .next { s with callers := s.answeredCallers c .invalidState })

/-- The matrix of rule R28: the state each transition leaves and its result, by the state found. -/
def Obligations.TransitionMatrix : Prop :=
  ∀ (i : Instr) (s : State) (c : Caller), isTransition i = true → s.idleAs c → s.lock = .free → s.irqBusy = false →
    s.par.hasDoze = true → (s.link = .on → s.pdActive = true) → 30 ≤ s.quantum →
    ∃ t, exec i s = .next t ∧ t.link = (linkMatrix i s.link).getD s.link ∧
      t.callers = s.answeredCallers c (if (linkMatrix i s.link).isSome then .ok else .invalidState)

/-- A transition whose agent finds the lock held waits, and changes nothing but its own place (rules R71, R132). -/
def Obligations.TransitionWaitsForTheLock : Prop :=
  ∀ (i : Instr) (s : State) (c : Caller) (b : Nat), isTransition i = true → s.idleAs c → s.lock = .held b →
    s.par.hasDoze = true → 3 ≤ s.quantum →
    ∃ f, f.instr = i ∧ f.locked = false ∧
      exec i s = .next { s with callers := s.callers.set s.cur { c with port := none, stack := [f] } }

/-- A request with a reserved code is answered `Unsupported` with no other effect, whatever its other bits are: as an operation,
and from its words at the port of the agent whose turn it is, 0x4 and 0x5 without the capability included (rules R93, R157, R287,
R298; D40, I11, notes/assumptions/15, 16). -/
def Obligations.ReservedCodesAnswerUnsupported : Prop :=
  (∀ (i : Instr) (s : State) (c : Caller), isReserved i = true → s.callers[s.cur]? = some c → c.accepts = true →
    exec i s = .next { s with callers := s.answeredCallers c .unsupported }) ∧
  ∀ (s : State) (a more : Nat) (later : List Turn) (c : Caller) (r : Request), s.fault = none →
    s.turns = .caller a more :: later → s.callers[a]? = some c → c.accepts = true → c.port = some r →
    isReservedCode s.par r.op = true →
    step s = .next
      { s with
        turns := later, cur := a, quantum := more
        callers := s.callers.set a { c with port := none, ret := some .unsupported } }

/-! ## WRITE (spec/41) -/

/-- WRITE outside ON: `NotReady`, no signal, interrupt source or watchdog touched and no register primitive called (rule
R172). -/
def Obligations.WriteOutsideOnIsNotReady : Prop :=
  ∀ (ty d0 d1 : Byte) (len : Half) (buf : Option BufHandle) (s : State) (c : Caller), s.idleAs c →
    (Instr.write ty d0 d1 len buf).wellFormed s.par = true → s.lock = .free → s.link ≠ .on → 30 ≤ s.quantum →
    exec (.write ty d0 d1 len buf) s = .next
      { s with
        hist := s.hist ++ [.blockLowPowerExit, .unblockLowPowerExit]
        callers := s.answeredCallers c .notReady }

/-- WRITE of an unrecognised type: the signal is reset, its interrupt source cleared and the watchdog armed, nothing is
pushed, `Unsupported` (rules R173, R174, R179; D26). -/
def Obligations.WriteOfUnrecognizedType : Prop :=
  ∀ (ty d0 d1 : Byte) (len : Half) (buf : Option BufHandle) (s : State) (c : Caller), s.idleAs c → s.lock = .free →
    s.link = .on → s.pdActive = true → s.par.classify ty = .unrecognized → 30 ≤ s.quantum →
    exec (.write ty d0 d1 len buf) s = .next
      { s with
        sigPh := ⟨false⟩, wd := s.armedWd
        hist := s.hist ++ writeStartEvents ++ [.unblockLowPowerExit]
        callers := s.answeredCallers c .unsupported }

/-- WRITE that need not wait: arming, the whole packet, one question, `Ok`; the signal stays reset and the watchdog armed
(rules R173 to R178, R180, R181; D20 to D26). -/
def Obligations.WriteWithoutWaitCompletes : Prop :=
  ∀ (ty d0 d1 : Byte) (len : Half) (buf : Option BufHandle) (s : State) (c : Caller), s.idleAs c →
    (Instr.write ty d0 d1 len buf).wellFormed s.par = true → s.lock = .free → s.link = .on → s.pdActive = true →
    s.par.classify ty ≠ .unrecognized → waitDecided s ty d0 len buf = false → asBool s.answer = true →
    30 + wordsFor len.toNat ≤ s.quantum →
    exec (.write ty d0 d1 len buf) s = .next (afterUnwaitedWrite s c ty d0 d1 len buf)

/-- WRITE that must wait: it sends the whole packet and blocks in its wait with the lock held; the FIFO is asked only when
class and command do not decide (rules R173 to R178, R180, R182; D20 to D27). -/
def Obligations.WriteThatMustWaitBlocks : Prop :=
  ∀ (ty d0 d1 : Byte) (len : Half) (buf : Option BufHandle) (s : State) (c : Caller), s.idleAs c →
    (Instr.write ty d0 d1 len buf).wellFormed s.par = true → s.lock = .free → s.link = .on → s.pdActive = true →
    s.par.classify ty ≠ .unrecognized → 30 + wordsFor len.toNat ≤ s.quantum →
    (waitDecided s ty d0 len buf = true →
      exec (.write ty d0 d1 len buf) s = .next (whileWriteWaits s c false ty d0 d1 len buf)) ∧
    (waitDecided s ty d0 len buf = false → asBool s.answer = false →
      exec (.write ty d0 d1 len buf) s = .next (whileWriteWaits s c true ty d0 d1 len buf))

/-- The wait of a WRITE ends `Signaled` once the signal is fired: the firing is consumed, the lock released, `Ok` (rules
R182, R185, R236; D27). -/
def Obligations.WriteCompletesOnSignal : Prop :=
  ∀ (s : State) (c : Caller) (f : WriteFrame) (rest : List Frame), s.runs c (.write f) rest → f.ctl.label = .w9 →
    s.lock = .held s.cur → s.sigPh.done = true → s.now < f.t0 + s.par.wrTimeout.val → 5 ≤ s.quantum →
    exec (Frame.write f).instr s = .next { afterCommand s c rest [] .ok with sigPh := ⟨false⟩ }

/-- A timeout with the header FIFO already empty is a success: the watchdog is disarmed, the signal reset, no dump is made,
`Ok`; at the end of the wait, and after it whether or not the signal has fired meanwhile (rule R183). -/
def Obligations.WriteTimeoutWithEmptyFifo : Prop :=
  ∀ (s : State) (c : Caller) (f : WriteFrame) (rest : List Frame), s.runs c (.write f) rest →
    (f.ctl.label = .w9 ∧ s.sigPh.done = false ∧ f.t0 + s.par.wrTimeout.val ≤ s.now) ∨ f.ctl.label = .w10 →
    s.lock = .held s.cur → s.pdActive = true → asBool s.answer = true → 10 ≤ s.quantum →
    exec (Frame.write f).instr s = .next
      { afterCommand s.answered c rest [.headerFifoEmpty true] .ok with sigPh := ⟨false⟩, wd := s.disarmedWd }

/-- A genuine timeout: one dump if the link is ON, neither the signal nor the watchdog touched, `Timeout`; at the end of the
wait, and after it whether or not the signal has fired meanwhile (rules R184, R283, R290; D38). -/
def Obligations.WriteGenuineTimeout : Prop :=
  ∀ (s : State) (c : Caller) (f : WriteFrame) (rest : List Frame), s.runs c (.write f) rest →
    (f.ctl.label = .w9 ∧ s.sigPh.done = false ∧ f.t0 + s.par.wrTimeout.val ≤ s.now) ∨ f.ctl.label = .w10 →
    s.lock = .held s.cur → s.pdActive = true → asBool s.answer = false → 10 ≤ s.quantum →
    exec (Frame.write f).instr s = .next
      (afterCommand s.answered c rest
        (.headerFifoEmpty false :: if s.link = .on then [.dump .writeTimeout] else []) .timeout)

/-- No wait ends before its signal or its time, that of a WRITE nested in READ included: the turn changes nothing (rules R182,
R204, R205, R206, R236; D27). -/
def Obligations.WaitDoesNotEndEarly : Prop :=
  ∀ (s : State) (c : Caller) (rest : List Frame),
    (∀ f, s.runs c (.write f) rest → f.ctl.label = .w9 → s.sigPh.done = false →
      s.now < f.t0 + s.par.wrTimeout.val → exec (Frame.write f).instr s = .next s) ∧
    (∀ f, s.runs c (.read f) rest → f.ctl.label = .r6 → s.sigRd.done = false →
      s.now < f.t0 + s.par.rdTimeout.val → exec (Frame.read f).instr s = .next s) ∧
    ∀ f g, s.runs c (.read f) rest → f.ctl.label = .r4 ∨ f.ctl.label = .r5 → f.sub = some g → g.ctl.label = .w9 →
      s.sigPh.done = false → s.now < g.t0 + s.par.wrTimeout.val → exec (Frame.read f).instr s = .next s

/-- With the signal fired and the time come, either outcome is taken, as the environment answers, in the wait of a WRITE, of a
WRITE nested in READ, and of READ; only `Signaled` consumes the firing (rules R236, R237; D27, notes/assumptions/21). -/
def Obligations.WaitTieTakesEitherOutcome : Prop :=
  ∀ (s : State) (c : Caller) (rest : List Frame), s.quantum = 0 →
    (∀ f, s.runs c (.write f) rest → f.ctl.label = .w9 → s.sigPh.done = true →
      f.t0 + s.par.wrTimeout.val ≤ s.now →
      exec (Frame.write f).instr s = .next
        { s.answered with
          sigPh := ⟨asBool s.answer⟩
          callers := s.callers.set s.cur { c with stack := .write (afterTie s f) :: rest } }) ∧
    (∀ f g, s.runs c (.read f) rest → f.ctl.label = .r4 ∨ f.ctl.label = .r5 → f.sub = some g →
      g.ctl.label = .w9 → s.sigPh.done = true → g.t0 + s.par.wrTimeout.val ≤ s.now →
      exec (Frame.read f).instr s = .next
        { s.answered with
          sigPh := ⟨asBool s.answer⟩
          callers := s.callers.set s.cur
            { c with
              stack := .read { f with
                t0 := if f.ctl.label = .r5 then s.now else f.t0, sub := some (afterTie s g) } :: rest } }) ∧
    ∀ f, s.runs c (.read f) rest → f.ctl.label = .r6 → s.sigRd.done = true → f.t0 + s.par.rdTimeout.val ≤ s.now →
      exec (Frame.read f).instr s = .next
        { s.answered with
          sigRd := ⟨asBool s.answer⟩
          callers := s.callers.set s.cur
            { c with
              stack := .read { f with
                ctl := f.ctl.goto .r6a, wres := if asBool s.answer then .timedOut else .signaled } :: rest } }

/-! ## READ (spec/42) -/

/-- READ in OFF: `NotReady`, and nothing else is done. READ in DOZE: the read-ready signal is reset and its interrupt source
cleared, then the nested WRITE fails and its `NotReady` is the READ's. A READ or WRITE that a panel callback requests under its
agent's own lock is stuck: it gets no further than a place where every turn of its agent changes nothing (rules R201, R202,
R204, R282, R297, R301, R336; D9, D29, I2; that a READ that would end earlier waits there is notes/assumptions/22). -/
def Obligations.ReadStateGate : Prop :=
  (∀ (ty addr : Byte) (maxLen cap : Half) (buf : Option BufHandle) (s : State) (c : Caller), s.idleAs c →
    (Instr.read ty addr maxLen cap buf).wellFormed s.par = true → 30 ≤ s.quantum →
    (s.link = .off → s.lock ≠ .held s.cur → exec (.read ty addr maxLen cap buf) s = .next
      { s with
        hist := s.hist ++ [.blockLowPowerExit, .unblockLowPowerExit]
        callers := s.answeredCallers c .notReady }) ∧
    (s.link = .doze → s.pdActive = true → s.lock = .free → exec (.read ty addr maxLen cap buf) s = .next
      { s with
        sigRd := ⟨false⟩
        hist := s.hist ++ [.blockLowPowerExit, .clearInterrupt irqRxDataDone, .blockLowPowerExit, .unblockLowPowerExit,
          .unblockLowPowerExit]
        callers := s.answeredCallers c .notReady })) ∧
  ∀ (i : Instr) (s : State) (c : Caller), i.opcode = 0x8 ∨ i.opcode = 0x9 → s.callers[s.cur]? = some c →
    c.accepts = true → i.wellFormed s.par = true → s.lock = .held s.cur → 30 ≤ s.quantum →
    ∃ t f, exec i s = .next t ∧ t.lock = .held s.cur ∧ f.instr = i ∧
      t.callers = s.callers.set s.cur { c with port := none, stack := f :: c.stack } ∧
      ∀ more, exec i (t.focus s.cur more) = .next (t.focus s.cur more)

/-- The two ways to the fault of rule R296, both in READ: one issued past its gate without power, at its first register
access; and one signaled after a teardown, at its first pop (rules R220, R224, R296, R334; D19). -/
def Obligations.ReadWithoutPowerFaults : Prop :=
  (∀ (ty addr : Byte) (maxLen cap : Half) (buf : Option BufHandle) (s : State) (c : Caller), s.idleAs c →
    (Instr.read ty addr maxLen cap buf).wellFormed s.par = true → s.link ≠ .off → s.pdActive = false →
    s.lock ≠ .held s.cur → 30 ≤ s.quantum → exec (.read ty addr maxLen cap buf) s = .fault .noPower) ∧
  ∀ (s : State) (c : Caller) (f : ReadFrame) (rest : List Frame), s.runs c (.read f) rest → f.ctl.label = .r6 →
    s.sigRd.done = true → s.now < f.t0 + s.par.rdTimeout.val → s.lock = .free → s.pdActive = false → 10 ≤ s.quantum →
    exec (Frame.read f).instr s = .fault .noPower

/-- What READ sends in ON, whatever its type. The first request packet is `max_len`, low byte first, and it waits like any short
write. Once it is sent, or its wait is signaled, the second is `type, d0, 0x00` in the form of the type's class: READ blocks in
its wait, or goes on to wait for the response, or ends with `Unsupported` (rules R99, R179, R180, R203 to R205; D29,
notes/assumptions/19, 20). -/
def Obligations.ReadSendsItsRequests : Prop :=
  (∀ (ty addr : Byte) (maxLen cap : Half) (buf : Option BufHandle) (s : State) (c : Caller), s.idleAs c →
    (Instr.read ty addr maxLen cap buf).wellFormed s.par = true → s.link = .on → s.pdActive = true → s.lock = .free →
    60 ≤ s.quantum →
    (s.par.ackRequired .shortWrite (some (lowByte maxLen)) = true →
      exec (.read ty addr maxLen cap buf) s = .next (whileFirstRequestWaits s c false ty addr maxLen cap buf)) ∧
    (s.par.ackRequired .shortWrite (some (lowByte maxLen)) = false → asBool s.answer = false →
      exec (.read ty addr maxLen cap buf) s = .next (whileFirstRequestWaits s c true ty addr maxLen cap buf)) ∧
    (s.par.ackRequired .shortWrite (some (lowByte maxLen)) = false → asBool s.answer = true →
      exec (.read ty addr maxLen cap buf) s = .next
        (afterSecondRequest (firstRequestSent s maxLen) { c with port := none } (ReadFrame.start ty addr maxLen cap buf)
          []))) ∧
  ∀ (s : State) (c : Caller) (f : ReadFrame) (g : WriteFrame) (rest : List Frame), s.runs c (.read f) rest →
    f.ctl.label = .r4 → f.sub = some g → g.ctl.label = .w9 → s.lock = .held s.cur → s.sigPh.done = true →
    s.now < g.t0 + s.par.wrTimeout.val → s.sigRd.done = false → s.link = .on → s.pdActive = true → 60 ≤ s.quantum →
    exec (Frame.read f).instr s = .next
      (afterSecondRequest
        { s with lock := .free, sigPh := ⟨false⟩, hist := s.hist ++ [.unblockLowPowerExit] } c f rest)

/-- When the second request has drained, READ releases the lock and waits for the response, its time counted from there
(rules R205, R206, R236; D27). -/
def Obligations.ReadWaitsForTheResponse : Prop :=
  ∀ (s : State) (c : Caller) (f : ReadFrame) (g : WriteFrame) (rest : List Frame), s.runs c (.read f) rest →
    f.ctl.label = .r5 → f.sub = some g → g.ctl.label = .w9 → s.lock = .held s.cur → s.sigPh.done = true →
    s.now < g.t0 + s.par.wrTimeout.val → s.sigRd.done = false → 10 ≤ s.quantum →
    exec (Frame.read f).instr s = .next
      { s with
        lock := .free, sigPh := ⟨false⟩, hist := s.hist ++ [.unblockLowPowerExit]
        callers := s.callers.set s.cur
          { c with stack := .read { f with ctl := ⟨.r6, .ok⟩, t0 := s.now, sub := none } :: rest } }

/-- READ whose request fails ends with that error, no response awaited (rules R204, R205). -/
def Obligations.ReadPropagatesTheFirstError : Prop :=
  ∀ (s : State) (c : Caller) (f : ReadFrame) (g : WriteFrame) (rest : List Frame), s.runs c (.read f) rest →
    f.ctl.label = .r4 ∨ f.ctl.label = .r5 → f.sub = some g → g.ctl.label = .w13 → g.ctl.res ≠ .ok → 5 ≤ s.quantum →
    exec (Frame.read f).instr s = .next
      { s with
        hist := s.hist ++ [.unblockLowPowerExit]
        callers := s.returnedCallers c rest g.ctl.res }

/-- READ without a response in time: `Timeout`, no dump, no recheck, the lock not taken (rules R206, R291; D27). -/
def Obligations.ReadTimeout : Prop :=
  ∀ (s : State) (c : Caller) (f : ReadFrame) (rest : List Frame), s.runs c (.read f) rest → f.ctl.label = .r6 →
    s.sigRd.done = false → f.t0 + s.par.rdTimeout.val ≤ s.now → 5 ≤ s.quantum →
    exec (Frame.read f).instr s = .next
      { s with
        hist := s.hist ++ [.unblockLowPowerExit]
        callers := s.returnedCallers c rest .timeout }

/-- READ of one response packet, of any class that raises no error: its bytes go to `out` in order while they fit, and the
result is how many were kept (rules R104, R207 to R209, R211 to R214, R216; D30 to D33). -/
def Obligations.ReadDrainsOneResponse : Prop :=
  ∀ (s : State) (c : Caller) (f : ReadFrame) (rest : List Frame) (k : RxPacket) (later : List Nat),
    s.runs c (.read f) rest → f.ctl.label = .r6 → s.sigRd.done = true → s.now < f.t0 + s.par.rdTimeout.val →
    s.lock = .free → s.pdActive = true → k.sound s.par → s.answers = rxAnswers [k] ++ later →
    drainSteps [k] ≤ s.quantum →
    exec (Frame.read f).instr s = .next
      { afterCommand s c rest (rxEvents [k]) (countOf f.cap (k.bytes s.par)) with
        sigRd := ⟨false⟩, mem := storeBytes s.mem f.out f.cap.toNat (k.bytes s.par), answers := later }

/-- READ of several response packets, at most `RX_FIFO_DEPTH` of them: their bytes are concatenated in FIFO order (rules
R207 to R209, R211 to R214, R216, R217, R221; D30 to D33). -/
def Obligations.ReadConcatenatesResponses : Prop :=
  ∀ (s : State) (c : Caller) (f : ReadFrame) (rest : List Frame) (l : List RxPacket) (later : List Nat),
    s.runs c (.read f) rest → f.ctl.label = .r6 → s.sigRd.done = true → s.now < f.t0 + s.par.rdTimeout.val →
    s.lock = .free → s.pdActive = true → l ≠ [] → l.length ≤ s.par.rxFifoDepth.val → (∀ k ∈ l, k.sound s.par) →
    s.answers = rxAnswers l ++ later → drainSteps l ≤ s.quantum →
    exec (Frame.read f).instr s = .next
      { afterCommand s c rest (rxEvents l) (countOf f.cap (l.flatMap (RxPacket.bytes s.par))) with
        sigRd := ⟨false⟩, mem := storeBytes s.mem f.out f.cap.toNat (l.flatMap (RxPacket.bytes s.par))
        answers := later }

/-- The three ways a drain ends in `ProtocolError`, each with one dump and nothing appended: an acknowledge and error report,
whose decoded code is carried; any other tag; and the last iteration with the FIFO not empty (rules R210, R215, R217, R284;
D32, D34). -/
def Obligations.ReadProtocolErrors : Prop :=
  ∀ (s : State) (c : Caller) (f : ReadFrame) (rest : List Frame), s.runs c (.read f) rest → s.lock = .held s.cur →
    s.pdActive = true → 10 ≤ s.quantum →
    (f.ctl.label = .r9 → s.par.rxTagClass (rxTag (asWord s.answer)) = .ackErr →
      exec (Frame.read f).instr s = .next
        (afterCommand s.answered.answered c rest
          [.readRxFifo (asWord s.answer), .decodeRxError (asWord s.answer) (asErrorCode s.answered.answer),
            .dump .rxAckErr] (.protocolError (some (asErrorCode s.answered.answer))))) ∧
    (f.ctl.label = .r9 → s.par.rxTagClass (rxTag (asWord s.answer)) = .other →
      exec (Frame.read f).instr s = .next
        (afterCommand s.answered c rest [.readRxFifo (asWord s.answer), .dump .rxBadTag] (.protocolError none))) ∧
    (f.ctl.label = .r15 → f.iter ≤ 1 → asBool s.answer = false →
      exec (Frame.read f).instr s = .next
        (afterCommand s.answered c rest [.rxFifoEmpty false, .dump .rxDrainExhausted] (.protocolError none)))

/-! ## The handler, the watchdog and time (spec/43, spec/44) -/

/-- A handler run starts exactly while the line is enabled and no run is in progress; without power it ends at once, after
three micro-steps, with no register access and nothing changed (rules R37, R261, R262, R271; D35). -/
def Obligations.HandlerStartAndEarlyExit : Prop :=
  ∀ s : State, s.irq.label = .idle →
    (s.irqEnabled = true → s.irqBusy = false →
      irqTurn s = .next { s with irqBusy := true, irq := ⟨.h1, s.irq.p⟩ }) ∧
    (s.irqEnabled = false ∨ s.irqBusy = true → irqTurn s = .next s) ∧
    (s.irqEnabled = true → s.irqBusy = false → s.pdActive = false → repeatTurn irqTurn 3 s = .next s)

/-- A whole handler run, eleven micro-steps with nothing in between, for every pending mask (rules R260, R263 to R272, R275;
D35 to D37). -/
def Obligations.HandlerRun : Prop :=
  ∀ s : State, s.irq.label = .idle → s.irqEnabled = true → s.irqBusy = false → s.pdActive = true →
    repeatTurn irqTurn 11 s = .next (afterHandler s (asWord s.answer))

/-- What the handler does for header-FIFO-empty (disarm, then fire), read-data-done (fire, the watchdog not touched) and
RX-ECC-error (dump), and its clear of the whole latched mask, one micro-step each, whatever else holds (rules R108, R264, R265,
R267, R270; D4, D35). -/
def Obligations.HandlerActions : Prop :=
  ∀ s : State,
    (s.irq.label = .h3 → pendingBit s.irq.p 0 = true →
      irqTurn s = .next { s with wd := s.disarmedWd, irq := ⟨.h4, s.irq.p⟩ }) ∧
    (s.irq.label = .h4 → pendingBit s.irq.p 0 = true →
      irqTurn s = .next { s with sigPh := ⟨true⟩, irq := ⟨.h5, s.irq.p⟩ }) ∧
    (s.irq.label = .h5 → pendingBit s.irq.p 1 = true →
      irqTurn s = .next { s with sigRd := ⟨true⟩, irq := ⟨.h6, s.irq.p⟩ }) ∧
    (s.irq.label = .h5 → pendingBit s.irq.p 1 = false → irqTurn s = .next { s with irq := ⟨.h6, s.irq.p⟩ }) ∧
    (s.irq.label = .h6 → pendingBit s.irq.p 3 = true → s.pdActive = true →
      irqTurn s = .next { s with hist := s.hist ++ [.dump .rxEccError], irq := ⟨.h7, s.irq.p⟩ }) ∧
    (s.irq.label = .h8 → s.pdActive = true →
      irqTurn s = .next { s with hist := s.hist ++ [.clearInterrupt s.irq.p], irq := ⟨.h9, s.irq.p⟩ })

/-- The watchdog expires exactly when armed and due: it disarms, rechecks, and dumps only if the FIFO is not empty; it tells
no one (rules R243, R244; D26). -/
def Obligations.WatchdogExpiry : Prop :=
  ∀ s : State,
    (s.wd.armed = false ∨ s.now < s.wd.deadline → wdtTurn s = .next s) ∧
    (s.wd.armed = true → s.wd.deadline ≤ s.now → s.pdActive = true →
      wdtTurn s = .next
        { s.answered with
          wd := s.disarmedWd, wdt := ⟨asBool s.answer⟩
          hist := s.hist ++ .headerFifoEmpty (asBool s.answer) ::
            (if asBool s.answer then [] else [.dump .watchdogStuck]) })

/-- The watchdog's step writes only `S.wd.armed`, its latch and the history (rule R245), and the model's own record of the
answers. -/
def Obligations.WatchdogWritesOnly : Prop :=
  ∀ s t : State, wdtTurn s = .next t →
    t = { s with
      wd := ⟨t.wd.armed, s.wd.deadline⟩, wdt := t.wdt, hist := t.hist, answers := t.answers
      answerDraws := t.answerDraws }

/-- The handler never touches the link state, the lock, the line and power flags, the time, a caller agent or a byte of
memory (rules R273, R274, R302). -/
def Obligations.HandlerFrame : Prop :=
  ∀ s t : State, irqTurn s = .next t →
    t.link = s.link ∧ t.lock = s.lock ∧ t.irqEnabled = s.irqEnabled ∧ t.pdActive = s.pdActive ∧ t.phyOn = s.phyOn ∧
    t.now = s.now ∧ t.callers = s.callers ∧ t.wdt = s.wdt ∧ t.mem = s.mem ∧ t.cfg = s.cfg ∧
    t.wd.deadline = s.wd.deadline ∧ (t.wd.armed = true → s.wd.armed = true)

end
end

