-- ==== Sys2Proof/Laws/State.lean ====
section
/-! SUPPORT. The state's update lemmas: what each named update of `State` does to each field, so that no proof unfolds a record
update. -/

namespace Sys2Proof.Machine

variable (s : State)

@[simp] theorem State.record_link (e : Event) : (s.record e).link = s.link := rfl
@[simp] theorem State.record_lock (e : Event) : (s.record e).lock = s.lock := rfl
@[simp] theorem State.record_sigPh (e : Event) : (s.record e).sigPh = s.sigPh := rfl
@[simp] theorem State.record_sigRd (e : Event) : (s.record e).sigRd = s.sigRd := rfl
@[simp] theorem State.record_wd (e : Event) : (s.record e).wd = s.wd := rfl
@[simp] theorem State.record_underrun (e : Event) : (s.record e).underrun = s.underrun := rfl
@[simp] theorem State.record_cfg (e : Event) : (s.record e).cfg = s.cfg := rfl
@[simp] theorem State.record_linkIndex (e : Event) : (s.record e).linkIndex = s.linkIndex := rfl
@[simp] theorem State.record_irqEnabled (e : Event) : (s.record e).irqEnabled = s.irqEnabled := rfl
@[simp] theorem State.record_pdActive (e : Event) : (s.record e).pdActive = s.pdActive := rfl
@[simp] theorem State.record_phyOn (e : Event) : (s.record e).phyOn = s.phyOn := rfl
@[simp] theorem State.record_irqBusy (e : Event) : (s.record e).irqBusy = s.irqBusy := rfl
@[simp] theorem State.record_now (e : Event) : (s.record e).now = s.now := rfl
@[simp] theorem State.record_hist (e : Event) : (s.record e).hist = s.hist ++ [e] := rfl
@[simp] theorem State.record_fault (e : Event) : (s.record e).fault = s.fault := rfl
@[simp] theorem State.record_callers (e : Event) : (s.record e).callers = s.callers := rfl
@[simp] theorem State.record_irq (e : Event) : (s.record e).irq = s.irq := rfl
@[simp] theorem State.record_wdt (e : Event) : (s.record e).wdt = s.wdt := rfl
@[simp] theorem State.record_mem (e : Event) : (s.record e).mem = s.mem := rfl
@[simp] theorem State.record_par (e : Event) : (s.record e).par = s.par := rfl
@[simp] theorem State.record_turns (e : Event) : (s.record e).turns = s.turns := rfl
@[simp] theorem State.record_turnDraws (e : Event) : (s.record e).turnDraws = s.turnDraws := rfl
@[simp] theorem State.record_answers (e : Event) : (s.record e).answers = s.answers := rfl
@[simp] theorem State.record_answerDraws (e : Event) : (s.record e).answerDraws = s.answerDraws := rfl
@[simp] theorem State.record_cur (e : Event) : (s.record e).cur = s.cur := rfl
@[simp] theorem State.record_quantum (e : Event) : (s.record e).quantum = s.quantum := rfl

@[simp] theorem State.setLink_link (v : LinkState) : (s.setLink v).link = v := rfl
@[simp] theorem State.setLink_lock (v : LinkState) : (s.setLink v).lock = s.lock := rfl
@[simp] theorem State.setLink_sigPh (v : LinkState) : (s.setLink v).sigPh = s.sigPh := rfl
@[simp] theorem State.setLink_sigRd (v : LinkState) : (s.setLink v).sigRd = s.sigRd := rfl
@[simp] theorem State.setLink_wd (v : LinkState) : (s.setLink v).wd = s.wd := rfl
@[simp] theorem State.setLink_underrun (v : LinkState) : (s.setLink v).underrun = s.underrun := rfl
@[simp] theorem State.setLink_cfg (v : LinkState) : (s.setLink v).cfg = s.cfg := rfl
@[simp] theorem State.setLink_linkIndex (v : LinkState) : (s.setLink v).linkIndex = s.linkIndex := rfl
@[simp] theorem State.setLink_irqEnabled (v : LinkState) : (s.setLink v).irqEnabled = s.irqEnabled := rfl
@[simp] theorem State.setLink_pdActive (v : LinkState) : (s.setLink v).pdActive = s.pdActive := rfl
@[simp] theorem State.setLink_phyOn (v : LinkState) : (s.setLink v).phyOn = s.phyOn := rfl
@[simp] theorem State.setLink_irqBusy (v : LinkState) : (s.setLink v).irqBusy = s.irqBusy := rfl
@[simp] theorem State.setLink_now (v : LinkState) : (s.setLink v).now = s.now := rfl
@[simp] theorem State.setLink_hist (v : LinkState) : (s.setLink v).hist = s.hist := rfl
@[simp] theorem State.setLink_fault (v : LinkState) : (s.setLink v).fault = s.fault := rfl
@[simp] theorem State.setLink_callers (v : LinkState) : (s.setLink v).callers = s.callers := rfl
@[simp] theorem State.setLink_irq (v : LinkState) : (s.setLink v).irq = s.irq := rfl
@[simp] theorem State.setLink_wdt (v : LinkState) : (s.setLink v).wdt = s.wdt := rfl
@[simp] theorem State.setLink_mem (v : LinkState) : (s.setLink v).mem = s.mem := rfl
@[simp] theorem State.setLink_par (v : LinkState) : (s.setLink v).par = s.par := rfl
@[simp] theorem State.setLink_turns (v : LinkState) : (s.setLink v).turns = s.turns := rfl
@[simp] theorem State.setLink_turnDraws (v : LinkState) : (s.setLink v).turnDraws = s.turnDraws := rfl
@[simp] theorem State.setLink_answers (v : LinkState) : (s.setLink v).answers = s.answers := rfl
@[simp] theorem State.setLink_answerDraws (v : LinkState) : (s.setLink v).answerDraws = s.answerDraws := rfl
@[simp] theorem State.setLink_cur (v : LinkState) : (s.setLink v).cur = s.cur := rfl
@[simp] theorem State.setLink_quantum (v : LinkState) : (s.setLink v).quantum = s.quantum := rfl

@[simp] theorem State.setLock_link (v : Lock) : (s.setLock v).link = s.link := rfl
@[simp] theorem State.setLock_lock (v : Lock) : (s.setLock v).lock = v := rfl
@[simp] theorem State.setLock_sigPh (v : Lock) : (s.setLock v).sigPh = s.sigPh := rfl
@[simp] theorem State.setLock_sigRd (v : Lock) : (s.setLock v).sigRd = s.sigRd := rfl
@[simp] theorem State.setLock_wd (v : Lock) : (s.setLock v).wd = s.wd := rfl
@[simp] theorem State.setLock_underrun (v : Lock) : (s.setLock v).underrun = s.underrun := rfl
@[simp] theorem State.setLock_cfg (v : Lock) : (s.setLock v).cfg = s.cfg := rfl
@[simp] theorem State.setLock_linkIndex (v : Lock) : (s.setLock v).linkIndex = s.linkIndex := rfl
@[simp] theorem State.setLock_irqEnabled (v : Lock) : (s.setLock v).irqEnabled = s.irqEnabled := rfl
@[simp] theorem State.setLock_pdActive (v : Lock) : (s.setLock v).pdActive = s.pdActive := rfl
@[simp] theorem State.setLock_phyOn (v : Lock) : (s.setLock v).phyOn = s.phyOn := rfl
@[simp] theorem State.setLock_irqBusy (v : Lock) : (s.setLock v).irqBusy = s.irqBusy := rfl
@[simp] theorem State.setLock_now (v : Lock) : (s.setLock v).now = s.now := rfl
@[simp] theorem State.setLock_hist (v : Lock) : (s.setLock v).hist = s.hist := rfl
@[simp] theorem State.setLock_fault (v : Lock) : (s.setLock v).fault = s.fault := rfl
@[simp] theorem State.setLock_callers (v : Lock) : (s.setLock v).callers = s.callers := rfl
@[simp] theorem State.setLock_irq (v : Lock) : (s.setLock v).irq = s.irq := rfl
@[simp] theorem State.setLock_wdt (v : Lock) : (s.setLock v).wdt = s.wdt := rfl
@[simp] theorem State.setLock_mem (v : Lock) : (s.setLock v).mem = s.mem := rfl
@[simp] theorem State.setLock_par (v : Lock) : (s.setLock v).par = s.par := rfl
@[simp] theorem State.setLock_turns (v : Lock) : (s.setLock v).turns = s.turns := rfl
@[simp] theorem State.setLock_turnDraws (v : Lock) : (s.setLock v).turnDraws = s.turnDraws := rfl
@[simp] theorem State.setLock_answers (v : Lock) : (s.setLock v).answers = s.answers := rfl
@[simp] theorem State.setLock_answerDraws (v : Lock) : (s.setLock v).answerDraws = s.answerDraws := rfl
@[simp] theorem State.setLock_cur (v : Lock) : (s.setLock v).cur = s.cur := rfl
@[simp] theorem State.setLock_quantum (v : Lock) : (s.setLock v).quantum = s.quantum := rfl

@[simp] theorem State.setSigPh_link (v : Signal) : (s.setSigPh v).link = s.link := rfl
@[simp] theorem State.setSigPh_lock (v : Signal) : (s.setSigPh v).lock = s.lock := rfl
@[simp] theorem State.setSigPh_sigPh (v : Signal) : (s.setSigPh v).sigPh = v := rfl
@[simp] theorem State.setSigPh_sigRd (v : Signal) : (s.setSigPh v).sigRd = s.sigRd := rfl
@[simp] theorem State.setSigPh_wd (v : Signal) : (s.setSigPh v).wd = s.wd := rfl
@[simp] theorem State.setSigPh_underrun (v : Signal) : (s.setSigPh v).underrun = s.underrun := rfl
@[simp] theorem State.setSigPh_cfg (v : Signal) : (s.setSigPh v).cfg = s.cfg := rfl
@[simp] theorem State.setSigPh_linkIndex (v : Signal) : (s.setSigPh v).linkIndex = s.linkIndex := rfl
@[simp] theorem State.setSigPh_irqEnabled (v : Signal) : (s.setSigPh v).irqEnabled = s.irqEnabled := rfl
@[simp] theorem State.setSigPh_pdActive (v : Signal) : (s.setSigPh v).pdActive = s.pdActive := rfl
@[simp] theorem State.setSigPh_phyOn (v : Signal) : (s.setSigPh v).phyOn = s.phyOn := rfl
@[simp] theorem State.setSigPh_irqBusy (v : Signal) : (s.setSigPh v).irqBusy = s.irqBusy := rfl
@[simp] theorem State.setSigPh_now (v : Signal) : (s.setSigPh v).now = s.now := rfl
@[simp] theorem State.setSigPh_hist (v : Signal) : (s.setSigPh v).hist = s.hist := rfl
@[simp] theorem State.setSigPh_fault (v : Signal) : (s.setSigPh v).fault = s.fault := rfl
@[simp] theorem State.setSigPh_callers (v : Signal) : (s.setSigPh v).callers = s.callers := rfl
@[simp] theorem State.setSigPh_irq (v : Signal) : (s.setSigPh v).irq = s.irq := rfl
@[simp] theorem State.setSigPh_wdt (v : Signal) : (s.setSigPh v).wdt = s.wdt := rfl
@[simp] theorem State.setSigPh_mem (v : Signal) : (s.setSigPh v).mem = s.mem := rfl
@[simp] theorem State.setSigPh_par (v : Signal) : (s.setSigPh v).par = s.par := rfl
@[simp] theorem State.setSigPh_turns (v : Signal) : (s.setSigPh v).turns = s.turns := rfl
@[simp] theorem State.setSigPh_turnDraws (v : Signal) : (s.setSigPh v).turnDraws = s.turnDraws := rfl
@[simp] theorem State.setSigPh_answers (v : Signal) : (s.setSigPh v).answers = s.answers := rfl
@[simp] theorem State.setSigPh_answerDraws (v : Signal) : (s.setSigPh v).answerDraws = s.answerDraws := rfl
@[simp] theorem State.setSigPh_cur (v : Signal) : (s.setSigPh v).cur = s.cur := rfl
@[simp] theorem State.setSigPh_quantum (v : Signal) : (s.setSigPh v).quantum = s.quantum := rfl

@[simp] theorem State.setSigRd_link (v : Signal) : (s.setSigRd v).link = s.link := rfl
@[simp] theorem State.setSigRd_lock (v : Signal) : (s.setSigRd v).lock = s.lock := rfl
@[simp] theorem State.setSigRd_sigPh (v : Signal) : (s.setSigRd v).sigPh = s.sigPh := rfl
@[simp] theorem State.setSigRd_sigRd (v : Signal) : (s.setSigRd v).sigRd = v := rfl
@[simp] theorem State.setSigRd_wd (v : Signal) : (s.setSigRd v).wd = s.wd := rfl
@[simp] theorem State.setSigRd_underrun (v : Signal) : (s.setSigRd v).underrun = s.underrun := rfl
@[simp] theorem State.setSigRd_cfg (v : Signal) : (s.setSigRd v).cfg = s.cfg := rfl
@[simp] theorem State.setSigRd_linkIndex (v : Signal) : (s.setSigRd v).linkIndex = s.linkIndex := rfl
@[simp] theorem State.setSigRd_irqEnabled (v : Signal) : (s.setSigRd v).irqEnabled = s.irqEnabled := rfl
@[simp] theorem State.setSigRd_pdActive (v : Signal) : (s.setSigRd v).pdActive = s.pdActive := rfl
@[simp] theorem State.setSigRd_phyOn (v : Signal) : (s.setSigRd v).phyOn = s.phyOn := rfl
@[simp] theorem State.setSigRd_irqBusy (v : Signal) : (s.setSigRd v).irqBusy = s.irqBusy := rfl
@[simp] theorem State.setSigRd_now (v : Signal) : (s.setSigRd v).now = s.now := rfl
@[simp] theorem State.setSigRd_hist (v : Signal) : (s.setSigRd v).hist = s.hist := rfl
@[simp] theorem State.setSigRd_fault (v : Signal) : (s.setSigRd v).fault = s.fault := rfl
@[simp] theorem State.setSigRd_callers (v : Signal) : (s.setSigRd v).callers = s.callers := rfl
@[simp] theorem State.setSigRd_irq (v : Signal) : (s.setSigRd v).irq = s.irq := rfl
@[simp] theorem State.setSigRd_wdt (v : Signal) : (s.setSigRd v).wdt = s.wdt := rfl
@[simp] theorem State.setSigRd_mem (v : Signal) : (s.setSigRd v).mem = s.mem := rfl
@[simp] theorem State.setSigRd_par (v : Signal) : (s.setSigRd v).par = s.par := rfl
@[simp] theorem State.setSigRd_turns (v : Signal) : (s.setSigRd v).turns = s.turns := rfl
@[simp] theorem State.setSigRd_turnDraws (v : Signal) : (s.setSigRd v).turnDraws = s.turnDraws := rfl
@[simp] theorem State.setSigRd_answers (v : Signal) : (s.setSigRd v).answers = s.answers := rfl
@[simp] theorem State.setSigRd_answerDraws (v : Signal) : (s.setSigRd v).answerDraws = s.answerDraws := rfl
@[simp] theorem State.setSigRd_cur (v : Signal) : (s.setSigRd v).cur = s.cur := rfl
@[simp] theorem State.setSigRd_quantum (v : Signal) : (s.setSigRd v).quantum = s.quantum := rfl

@[simp] theorem State.setWd_link (v : Watchdog) : (s.setWd v).link = s.link := rfl
@[simp] theorem State.setWd_lock (v : Watchdog) : (s.setWd v).lock = s.lock := rfl
@[simp] theorem State.setWd_sigPh (v : Watchdog) : (s.setWd v).sigPh = s.sigPh := rfl
@[simp] theorem State.setWd_sigRd (v : Watchdog) : (s.setWd v).sigRd = s.sigRd := rfl
@[simp] theorem State.setWd_wd (v : Watchdog) : (s.setWd v).wd = v := rfl
@[simp] theorem State.setWd_underrun (v : Watchdog) : (s.setWd v).underrun = s.underrun := rfl
@[simp] theorem State.setWd_cfg (v : Watchdog) : (s.setWd v).cfg = s.cfg := rfl
@[simp] theorem State.setWd_linkIndex (v : Watchdog) : (s.setWd v).linkIndex = s.linkIndex := rfl
@[simp] theorem State.setWd_irqEnabled (v : Watchdog) : (s.setWd v).irqEnabled = s.irqEnabled := rfl
@[simp] theorem State.setWd_pdActive (v : Watchdog) : (s.setWd v).pdActive = s.pdActive := rfl
@[simp] theorem State.setWd_phyOn (v : Watchdog) : (s.setWd v).phyOn = s.phyOn := rfl
@[simp] theorem State.setWd_irqBusy (v : Watchdog) : (s.setWd v).irqBusy = s.irqBusy := rfl
@[simp] theorem State.setWd_now (v : Watchdog) : (s.setWd v).now = s.now := rfl
@[simp] theorem State.setWd_hist (v : Watchdog) : (s.setWd v).hist = s.hist := rfl
@[simp] theorem State.setWd_fault (v : Watchdog) : (s.setWd v).fault = s.fault := rfl
@[simp] theorem State.setWd_callers (v : Watchdog) : (s.setWd v).callers = s.callers := rfl
@[simp] theorem State.setWd_irq (v : Watchdog) : (s.setWd v).irq = s.irq := rfl
@[simp] theorem State.setWd_wdt (v : Watchdog) : (s.setWd v).wdt = s.wdt := rfl
@[simp] theorem State.setWd_mem (v : Watchdog) : (s.setWd v).mem = s.mem := rfl
@[simp] theorem State.setWd_par (v : Watchdog) : (s.setWd v).par = s.par := rfl
@[simp] theorem State.setWd_turns (v : Watchdog) : (s.setWd v).turns = s.turns := rfl
@[simp] theorem State.setWd_turnDraws (v : Watchdog) : (s.setWd v).turnDraws = s.turnDraws := rfl
@[simp] theorem State.setWd_answers (v : Watchdog) : (s.setWd v).answers = s.answers := rfl
@[simp] theorem State.setWd_answerDraws (v : Watchdog) : (s.setWd v).answerDraws = s.answerDraws := rfl
@[simp] theorem State.setWd_cur (v : Watchdog) : (s.setWd v).cur = s.cur := rfl
@[simp] theorem State.setWd_quantum (v : Watchdog) : (s.setWd v).quantum = s.quantum := rfl

@[simp] theorem State.setUnderrun_link (v : BitVec 32) : (s.setUnderrun v).link = s.link := rfl
@[simp] theorem State.setUnderrun_lock (v : BitVec 32) : (s.setUnderrun v).lock = s.lock := rfl
@[simp] theorem State.setUnderrun_sigPh (v : BitVec 32) : (s.setUnderrun v).sigPh = s.sigPh := rfl
@[simp] theorem State.setUnderrun_sigRd (v : BitVec 32) : (s.setUnderrun v).sigRd = s.sigRd := rfl
@[simp] theorem State.setUnderrun_wd (v : BitVec 32) : (s.setUnderrun v).wd = s.wd := rfl
@[simp] theorem State.setUnderrun_underrun (v : BitVec 32) : (s.setUnderrun v).underrun = v := rfl
@[simp] theorem State.setUnderrun_cfg (v : BitVec 32) : (s.setUnderrun v).cfg = s.cfg := rfl
@[simp] theorem State.setUnderrun_linkIndex (v : BitVec 32) : (s.setUnderrun v).linkIndex = s.linkIndex := rfl
@[simp] theorem State.setUnderrun_irqEnabled (v : BitVec 32) : (s.setUnderrun v).irqEnabled = s.irqEnabled := rfl
@[simp] theorem State.setUnderrun_pdActive (v : BitVec 32) : (s.setUnderrun v).pdActive = s.pdActive := rfl
@[simp] theorem State.setUnderrun_phyOn (v : BitVec 32) : (s.setUnderrun v).phyOn = s.phyOn := rfl
@[simp] theorem State.setUnderrun_irqBusy (v : BitVec 32) : (s.setUnderrun v).irqBusy = s.irqBusy := rfl
@[simp] theorem State.setUnderrun_now (v : BitVec 32) : (s.setUnderrun v).now = s.now := rfl
@[simp] theorem State.setUnderrun_hist (v : BitVec 32) : (s.setUnderrun v).hist = s.hist := rfl
@[simp] theorem State.setUnderrun_fault (v : BitVec 32) : (s.setUnderrun v).fault = s.fault := rfl
@[simp] theorem State.setUnderrun_callers (v : BitVec 32) : (s.setUnderrun v).callers = s.callers := rfl
@[simp] theorem State.setUnderrun_irq (v : BitVec 32) : (s.setUnderrun v).irq = s.irq := rfl
@[simp] theorem State.setUnderrun_wdt (v : BitVec 32) : (s.setUnderrun v).wdt = s.wdt := rfl
@[simp] theorem State.setUnderrun_mem (v : BitVec 32) : (s.setUnderrun v).mem = s.mem := rfl
@[simp] theorem State.setUnderrun_par (v : BitVec 32) : (s.setUnderrun v).par = s.par := rfl
@[simp] theorem State.setUnderrun_turns (v : BitVec 32) : (s.setUnderrun v).turns = s.turns := rfl
@[simp] theorem State.setUnderrun_turnDraws (v : BitVec 32) : (s.setUnderrun v).turnDraws = s.turnDraws := rfl
@[simp] theorem State.setUnderrun_answers (v : BitVec 32) : (s.setUnderrun v).answers = s.answers := rfl
@[simp] theorem State.setUnderrun_answerDraws (v : BitVec 32) : (s.setUnderrun v).answerDraws = s.answerDraws := rfl
@[simp] theorem State.setUnderrun_cur (v : BitVec 32) : (s.setUnderrun v).cur = s.cur := rfl
@[simp] theorem State.setUnderrun_quantum (v : BitVec 32) : (s.setUnderrun v).quantum = s.quantum := rfl

@[simp] theorem State.setIrqEnabled_link (v : Bool) : (s.setIrqEnabled v).link = s.link := rfl
@[simp] theorem State.setIrqEnabled_lock (v : Bool) : (s.setIrqEnabled v).lock = s.lock := rfl
@[simp] theorem State.setIrqEnabled_sigPh (v : Bool) : (s.setIrqEnabled v).sigPh = s.sigPh := rfl
@[simp] theorem State.setIrqEnabled_sigRd (v : Bool) : (s.setIrqEnabled v).sigRd = s.sigRd := rfl
@[simp] theorem State.setIrqEnabled_wd (v : Bool) : (s.setIrqEnabled v).wd = s.wd := rfl
@[simp] theorem State.setIrqEnabled_underrun (v : Bool) : (s.setIrqEnabled v).underrun = s.underrun := rfl
@[simp] theorem State.setIrqEnabled_cfg (v : Bool) : (s.setIrqEnabled v).cfg = s.cfg := rfl
@[simp] theorem State.setIrqEnabled_linkIndex (v : Bool) : (s.setIrqEnabled v).linkIndex = s.linkIndex := rfl
@[simp] theorem State.setIrqEnabled_irqEnabled (v : Bool) : (s.setIrqEnabled v).irqEnabled = v := rfl
@[simp] theorem State.setIrqEnabled_pdActive (v : Bool) : (s.setIrqEnabled v).pdActive = s.pdActive := rfl
@[simp] theorem State.setIrqEnabled_phyOn (v : Bool) : (s.setIrqEnabled v).phyOn = s.phyOn := rfl
@[simp] theorem State.setIrqEnabled_irqBusy (v : Bool) : (s.setIrqEnabled v).irqBusy = s.irqBusy := rfl
@[simp] theorem State.setIrqEnabled_now (v : Bool) : (s.setIrqEnabled v).now = s.now := rfl
@[simp] theorem State.setIrqEnabled_hist (v : Bool) : (s.setIrqEnabled v).hist = s.hist := rfl
@[simp] theorem State.setIrqEnabled_fault (v : Bool) : (s.setIrqEnabled v).fault = s.fault := rfl
@[simp] theorem State.setIrqEnabled_callers (v : Bool) : (s.setIrqEnabled v).callers = s.callers := rfl
@[simp] theorem State.setIrqEnabled_irq (v : Bool) : (s.setIrqEnabled v).irq = s.irq := rfl
@[simp] theorem State.setIrqEnabled_wdt (v : Bool) : (s.setIrqEnabled v).wdt = s.wdt := rfl
@[simp] theorem State.setIrqEnabled_mem (v : Bool) : (s.setIrqEnabled v).mem = s.mem := rfl
@[simp] theorem State.setIrqEnabled_par (v : Bool) : (s.setIrqEnabled v).par = s.par := rfl
@[simp] theorem State.setIrqEnabled_turns (v : Bool) : (s.setIrqEnabled v).turns = s.turns := rfl
@[simp] theorem State.setIrqEnabled_turnDraws (v : Bool) : (s.setIrqEnabled v).turnDraws = s.turnDraws := rfl
@[simp] theorem State.setIrqEnabled_answers (v : Bool) : (s.setIrqEnabled v).answers = s.answers := rfl
@[simp] theorem State.setIrqEnabled_answerDraws (v : Bool) : (s.setIrqEnabled v).answerDraws = s.answerDraws := rfl
@[simp] theorem State.setIrqEnabled_cur (v : Bool) : (s.setIrqEnabled v).cur = s.cur := rfl
@[simp] theorem State.setIrqEnabled_quantum (v : Bool) : (s.setIrqEnabled v).quantum = s.quantum := rfl

@[simp] theorem State.setPdActive_link (v : Bool) : (s.setPdActive v).link = s.link := rfl
@[simp] theorem State.setPdActive_lock (v : Bool) : (s.setPdActive v).lock = s.lock := rfl
@[simp] theorem State.setPdActive_sigPh (v : Bool) : (s.setPdActive v).sigPh = s.sigPh := rfl
@[simp] theorem State.setPdActive_sigRd (v : Bool) : (s.setPdActive v).sigRd = s.sigRd := rfl
@[simp] theorem State.setPdActive_wd (v : Bool) : (s.setPdActive v).wd = s.wd := rfl
@[simp] theorem State.setPdActive_underrun (v : Bool) : (s.setPdActive v).underrun = s.underrun := rfl
@[simp] theorem State.setPdActive_cfg (v : Bool) : (s.setPdActive v).cfg = s.cfg := rfl
@[simp] theorem State.setPdActive_linkIndex (v : Bool) : (s.setPdActive v).linkIndex = s.linkIndex := rfl
@[simp] theorem State.setPdActive_irqEnabled (v : Bool) : (s.setPdActive v).irqEnabled = s.irqEnabled := rfl
@[simp] theorem State.setPdActive_pdActive (v : Bool) : (s.setPdActive v).pdActive = v := rfl
@[simp] theorem State.setPdActive_phyOn (v : Bool) : (s.setPdActive v).phyOn = s.phyOn := rfl
@[simp] theorem State.setPdActive_irqBusy (v : Bool) : (s.setPdActive v).irqBusy = s.irqBusy := rfl
@[simp] theorem State.setPdActive_now (v : Bool) : (s.setPdActive v).now = s.now := rfl
@[simp] theorem State.setPdActive_hist (v : Bool) : (s.setPdActive v).hist = s.hist := rfl
@[simp] theorem State.setPdActive_fault (v : Bool) : (s.setPdActive v).fault = s.fault := rfl
@[simp] theorem State.setPdActive_callers (v : Bool) : (s.setPdActive v).callers = s.callers := rfl
@[simp] theorem State.setPdActive_irq (v : Bool) : (s.setPdActive v).irq = s.irq := rfl
@[simp] theorem State.setPdActive_wdt (v : Bool) : (s.setPdActive v).wdt = s.wdt := rfl
@[simp] theorem State.setPdActive_mem (v : Bool) : (s.setPdActive v).mem = s.mem := rfl
@[simp] theorem State.setPdActive_par (v : Bool) : (s.setPdActive v).par = s.par := rfl
@[simp] theorem State.setPdActive_turns (v : Bool) : (s.setPdActive v).turns = s.turns := rfl
@[simp] theorem State.setPdActive_turnDraws (v : Bool) : (s.setPdActive v).turnDraws = s.turnDraws := rfl
@[simp] theorem State.setPdActive_answers (v : Bool) : (s.setPdActive v).answers = s.answers := rfl
@[simp] theorem State.setPdActive_answerDraws (v : Bool) : (s.setPdActive v).answerDraws = s.answerDraws := rfl
@[simp] theorem State.setPdActive_cur (v : Bool) : (s.setPdActive v).cur = s.cur := rfl
@[simp] theorem State.setPdActive_quantum (v : Bool) : (s.setPdActive v).quantum = s.quantum := rfl

@[simp] theorem State.setPhyOn_link (v : Bool) : (s.setPhyOn v).link = s.link := rfl
@[simp] theorem State.setPhyOn_lock (v : Bool) : (s.setPhyOn v).lock = s.lock := rfl
@[simp] theorem State.setPhyOn_sigPh (v : Bool) : (s.setPhyOn v).sigPh = s.sigPh := rfl
@[simp] theorem State.setPhyOn_sigRd (v : Bool) : (s.setPhyOn v).sigRd = s.sigRd := rfl
@[simp] theorem State.setPhyOn_wd (v : Bool) : (s.setPhyOn v).wd = s.wd := rfl
@[simp] theorem State.setPhyOn_underrun (v : Bool) : (s.setPhyOn v).underrun = s.underrun := rfl
@[simp] theorem State.setPhyOn_cfg (v : Bool) : (s.setPhyOn v).cfg = s.cfg := rfl
@[simp] theorem State.setPhyOn_linkIndex (v : Bool) : (s.setPhyOn v).linkIndex = s.linkIndex := rfl
@[simp] theorem State.setPhyOn_irqEnabled (v : Bool) : (s.setPhyOn v).irqEnabled = s.irqEnabled := rfl
@[simp] theorem State.setPhyOn_pdActive (v : Bool) : (s.setPhyOn v).pdActive = s.pdActive := rfl
@[simp] theorem State.setPhyOn_phyOn (v : Bool) : (s.setPhyOn v).phyOn = v := rfl
@[simp] theorem State.setPhyOn_irqBusy (v : Bool) : (s.setPhyOn v).irqBusy = s.irqBusy := rfl
@[simp] theorem State.setPhyOn_now (v : Bool) : (s.setPhyOn v).now = s.now := rfl
@[simp] theorem State.setPhyOn_hist (v : Bool) : (s.setPhyOn v).hist = s.hist := rfl
@[simp] theorem State.setPhyOn_fault (v : Bool) : (s.setPhyOn v).fault = s.fault := rfl
@[simp] theorem State.setPhyOn_callers (v : Bool) : (s.setPhyOn v).callers = s.callers := rfl
@[simp] theorem State.setPhyOn_irq (v : Bool) : (s.setPhyOn v).irq = s.irq := rfl
@[simp] theorem State.setPhyOn_wdt (v : Bool) : (s.setPhyOn v).wdt = s.wdt := rfl
@[simp] theorem State.setPhyOn_mem (v : Bool) : (s.setPhyOn v).mem = s.mem := rfl
@[simp] theorem State.setPhyOn_par (v : Bool) : (s.setPhyOn v).par = s.par := rfl
@[simp] theorem State.setPhyOn_turns (v : Bool) : (s.setPhyOn v).turns = s.turns := rfl
@[simp] theorem State.setPhyOn_turnDraws (v : Bool) : (s.setPhyOn v).turnDraws = s.turnDraws := rfl
@[simp] theorem State.setPhyOn_answers (v : Bool) : (s.setPhyOn v).answers = s.answers := rfl
@[simp] theorem State.setPhyOn_answerDraws (v : Bool) : (s.setPhyOn v).answerDraws = s.answerDraws := rfl
@[simp] theorem State.setPhyOn_cur (v : Bool) : (s.setPhyOn v).cur = s.cur := rfl
@[simp] theorem State.setPhyOn_quantum (v : Bool) : (s.setPhyOn v).quantum = s.quantum := rfl

@[simp] theorem State.setIrqBusy_link (v : Bool) : (s.setIrqBusy v).link = s.link := rfl
@[simp] theorem State.setIrqBusy_lock (v : Bool) : (s.setIrqBusy v).lock = s.lock := rfl
@[simp] theorem State.setIrqBusy_sigPh (v : Bool) : (s.setIrqBusy v).sigPh = s.sigPh := rfl
@[simp] theorem State.setIrqBusy_sigRd (v : Bool) : (s.setIrqBusy v).sigRd = s.sigRd := rfl
@[simp] theorem State.setIrqBusy_wd (v : Bool) : (s.setIrqBusy v).wd = s.wd := rfl
@[simp] theorem State.setIrqBusy_underrun (v : Bool) : (s.setIrqBusy v).underrun = s.underrun := rfl
@[simp] theorem State.setIrqBusy_cfg (v : Bool) : (s.setIrqBusy v).cfg = s.cfg := rfl
@[simp] theorem State.setIrqBusy_linkIndex (v : Bool) : (s.setIrqBusy v).linkIndex = s.linkIndex := rfl
@[simp] theorem State.setIrqBusy_irqEnabled (v : Bool) : (s.setIrqBusy v).irqEnabled = s.irqEnabled := rfl
@[simp] theorem State.setIrqBusy_pdActive (v : Bool) : (s.setIrqBusy v).pdActive = s.pdActive := rfl
@[simp] theorem State.setIrqBusy_phyOn (v : Bool) : (s.setIrqBusy v).phyOn = s.phyOn := rfl
@[simp] theorem State.setIrqBusy_irqBusy (v : Bool) : (s.setIrqBusy v).irqBusy = v := rfl
@[simp] theorem State.setIrqBusy_now (v : Bool) : (s.setIrqBusy v).now = s.now := rfl
@[simp] theorem State.setIrqBusy_hist (v : Bool) : (s.setIrqBusy v).hist = s.hist := rfl
@[simp] theorem State.setIrqBusy_fault (v : Bool) : (s.setIrqBusy v).fault = s.fault := rfl
@[simp] theorem State.setIrqBusy_callers (v : Bool) : (s.setIrqBusy v).callers = s.callers := rfl
@[simp] theorem State.setIrqBusy_irq (v : Bool) : (s.setIrqBusy v).irq = s.irq := rfl
@[simp] theorem State.setIrqBusy_wdt (v : Bool) : (s.setIrqBusy v).wdt = s.wdt := rfl
@[simp] theorem State.setIrqBusy_mem (v : Bool) : (s.setIrqBusy v).mem = s.mem := rfl
@[simp] theorem State.setIrqBusy_par (v : Bool) : (s.setIrqBusy v).par = s.par := rfl
@[simp] theorem State.setIrqBusy_turns (v : Bool) : (s.setIrqBusy v).turns = s.turns := rfl
@[simp] theorem State.setIrqBusy_turnDraws (v : Bool) : (s.setIrqBusy v).turnDraws = s.turnDraws := rfl
@[simp] theorem State.setIrqBusy_answers (v : Bool) : (s.setIrqBusy v).answers = s.answers := rfl
@[simp] theorem State.setIrqBusy_answerDraws (v : Bool) : (s.setIrqBusy v).answerDraws = s.answerDraws := rfl
@[simp] theorem State.setIrqBusy_cur (v : Bool) : (s.setIrqBusy v).cur = s.cur := rfl
@[simp] theorem State.setIrqBusy_quantum (v : Bool) : (s.setIrqBusy v).quantum = s.quantum := rfl

@[simp] theorem State.setNow_link (v : Nat) : (s.setNow v).link = s.link := rfl
@[simp] theorem State.setNow_lock (v : Nat) : (s.setNow v).lock = s.lock := rfl
@[simp] theorem State.setNow_sigPh (v : Nat) : (s.setNow v).sigPh = s.sigPh := rfl
@[simp] theorem State.setNow_sigRd (v : Nat) : (s.setNow v).sigRd = s.sigRd := rfl
@[simp] theorem State.setNow_wd (v : Nat) : (s.setNow v).wd = s.wd := rfl
@[simp] theorem State.setNow_underrun (v : Nat) : (s.setNow v).underrun = s.underrun := rfl
@[simp] theorem State.setNow_cfg (v : Nat) : (s.setNow v).cfg = s.cfg := rfl
@[simp] theorem State.setNow_linkIndex (v : Nat) : (s.setNow v).linkIndex = s.linkIndex := rfl
@[simp] theorem State.setNow_irqEnabled (v : Nat) : (s.setNow v).irqEnabled = s.irqEnabled := rfl
@[simp] theorem State.setNow_pdActive (v : Nat) : (s.setNow v).pdActive = s.pdActive := rfl
@[simp] theorem State.setNow_phyOn (v : Nat) : (s.setNow v).phyOn = s.phyOn := rfl
@[simp] theorem State.setNow_irqBusy (v : Nat) : (s.setNow v).irqBusy = s.irqBusy := rfl
@[simp] theorem State.setNow_now (v : Nat) : (s.setNow v).now = v := rfl
@[simp] theorem State.setNow_hist (v : Nat) : (s.setNow v).hist = s.hist := rfl
@[simp] theorem State.setNow_fault (v : Nat) : (s.setNow v).fault = s.fault := rfl
@[simp] theorem State.setNow_callers (v : Nat) : (s.setNow v).callers = s.callers := rfl
@[simp] theorem State.setNow_irq (v : Nat) : (s.setNow v).irq = s.irq := rfl
@[simp] theorem State.setNow_wdt (v : Nat) : (s.setNow v).wdt = s.wdt := rfl
@[simp] theorem State.setNow_mem (v : Nat) : (s.setNow v).mem = s.mem := rfl
@[simp] theorem State.setNow_par (v : Nat) : (s.setNow v).par = s.par := rfl
@[simp] theorem State.setNow_turns (v : Nat) : (s.setNow v).turns = s.turns := rfl
@[simp] theorem State.setNow_turnDraws (v : Nat) : (s.setNow v).turnDraws = s.turnDraws := rfl
@[simp] theorem State.setNow_answers (v : Nat) : (s.setNow v).answers = s.answers := rfl
@[simp] theorem State.setNow_answerDraws (v : Nat) : (s.setNow v).answerDraws = s.answerDraws := rfl
@[simp] theorem State.setNow_cur (v : Nat) : (s.setNow v).cur = s.cur := rfl
@[simp] theorem State.setNow_quantum (v : Nat) : (s.setNow v).quantum = s.quantum := rfl

@[simp] theorem State.setCallers_link (v : List Caller) : (s.setCallers v).link = s.link := rfl
@[simp] theorem State.setCallers_lock (v : List Caller) : (s.setCallers v).lock = s.lock := rfl
@[simp] theorem State.setCallers_sigPh (v : List Caller) : (s.setCallers v).sigPh = s.sigPh := rfl
@[simp] theorem State.setCallers_sigRd (v : List Caller) : (s.setCallers v).sigRd = s.sigRd := rfl
@[simp] theorem State.setCallers_wd (v : List Caller) : (s.setCallers v).wd = s.wd := rfl
@[simp] theorem State.setCallers_underrun (v : List Caller) : (s.setCallers v).underrun = s.underrun := rfl
@[simp] theorem State.setCallers_cfg (v : List Caller) : (s.setCallers v).cfg = s.cfg := rfl
@[simp] theorem State.setCallers_linkIndex (v : List Caller) : (s.setCallers v).linkIndex = s.linkIndex := rfl
@[simp] theorem State.setCallers_irqEnabled (v : List Caller) : (s.setCallers v).irqEnabled = s.irqEnabled := rfl
@[simp] theorem State.setCallers_pdActive (v : List Caller) : (s.setCallers v).pdActive = s.pdActive := rfl
@[simp] theorem State.setCallers_phyOn (v : List Caller) : (s.setCallers v).phyOn = s.phyOn := rfl
@[simp] theorem State.setCallers_irqBusy (v : List Caller) : (s.setCallers v).irqBusy = s.irqBusy := rfl
@[simp] theorem State.setCallers_now (v : List Caller) : (s.setCallers v).now = s.now := rfl
@[simp] theorem State.setCallers_hist (v : List Caller) : (s.setCallers v).hist = s.hist := rfl
@[simp] theorem State.setCallers_fault (v : List Caller) : (s.setCallers v).fault = s.fault := rfl
@[simp] theorem State.setCallers_callers (v : List Caller) : (s.setCallers v).callers = v := rfl
@[simp] theorem State.setCallers_irq (v : List Caller) : (s.setCallers v).irq = s.irq := rfl
@[simp] theorem State.setCallers_wdt (v : List Caller) : (s.setCallers v).wdt = s.wdt := rfl
@[simp] theorem State.setCallers_mem (v : List Caller) : (s.setCallers v).mem = s.mem := rfl
@[simp] theorem State.setCallers_par (v : List Caller) : (s.setCallers v).par = s.par := rfl
@[simp] theorem State.setCallers_turns (v : List Caller) : (s.setCallers v).turns = s.turns := rfl
@[simp] theorem State.setCallers_turnDraws (v : List Caller) : (s.setCallers v).turnDraws = s.turnDraws := rfl
@[simp] theorem State.setCallers_answers (v : List Caller) : (s.setCallers v).answers = s.answers := rfl
@[simp] theorem State.setCallers_answerDraws (v : List Caller) : (s.setCallers v).answerDraws = s.answerDraws := rfl
@[simp] theorem State.setCallers_cur (v : List Caller) : (s.setCallers v).cur = s.cur := rfl
@[simp] theorem State.setCallers_quantum (v : List Caller) : (s.setCallers v).quantum = s.quantum := rfl

@[simp] theorem State.setIrq_link (v : IrqAgent) : (s.setIrq v).link = s.link := rfl
@[simp] theorem State.setIrq_lock (v : IrqAgent) : (s.setIrq v).lock = s.lock := rfl
@[simp] theorem State.setIrq_sigPh (v : IrqAgent) : (s.setIrq v).sigPh = s.sigPh := rfl
@[simp] theorem State.setIrq_sigRd (v : IrqAgent) : (s.setIrq v).sigRd = s.sigRd := rfl
@[simp] theorem State.setIrq_wd (v : IrqAgent) : (s.setIrq v).wd = s.wd := rfl
@[simp] theorem State.setIrq_underrun (v : IrqAgent) : (s.setIrq v).underrun = s.underrun := rfl
@[simp] theorem State.setIrq_cfg (v : IrqAgent) : (s.setIrq v).cfg = s.cfg := rfl
@[simp] theorem State.setIrq_linkIndex (v : IrqAgent) : (s.setIrq v).linkIndex = s.linkIndex := rfl
@[simp] theorem State.setIrq_irqEnabled (v : IrqAgent) : (s.setIrq v).irqEnabled = s.irqEnabled := rfl
@[simp] theorem State.setIrq_pdActive (v : IrqAgent) : (s.setIrq v).pdActive = s.pdActive := rfl
@[simp] theorem State.setIrq_phyOn (v : IrqAgent) : (s.setIrq v).phyOn = s.phyOn := rfl
@[simp] theorem State.setIrq_irqBusy (v : IrqAgent) : (s.setIrq v).irqBusy = s.irqBusy := rfl
@[simp] theorem State.setIrq_now (v : IrqAgent) : (s.setIrq v).now = s.now := rfl
@[simp] theorem State.setIrq_hist (v : IrqAgent) : (s.setIrq v).hist = s.hist := rfl
@[simp] theorem State.setIrq_fault (v : IrqAgent) : (s.setIrq v).fault = s.fault := rfl
@[simp] theorem State.setIrq_callers (v : IrqAgent) : (s.setIrq v).callers = s.callers := rfl
@[simp] theorem State.setIrq_irq (v : IrqAgent) : (s.setIrq v).irq = v := rfl
@[simp] theorem State.setIrq_wdt (v : IrqAgent) : (s.setIrq v).wdt = s.wdt := rfl
@[simp] theorem State.setIrq_mem (v : IrqAgent) : (s.setIrq v).mem = s.mem := rfl
@[simp] theorem State.setIrq_par (v : IrqAgent) : (s.setIrq v).par = s.par := rfl
@[simp] theorem State.setIrq_turns (v : IrqAgent) : (s.setIrq v).turns = s.turns := rfl
@[simp] theorem State.setIrq_turnDraws (v : IrqAgent) : (s.setIrq v).turnDraws = s.turnDraws := rfl
@[simp] theorem State.setIrq_answers (v : IrqAgent) : (s.setIrq v).answers = s.answers := rfl
@[simp] theorem State.setIrq_answerDraws (v : IrqAgent) : (s.setIrq v).answerDraws = s.answerDraws := rfl
@[simp] theorem State.setIrq_cur (v : IrqAgent) : (s.setIrq v).cur = s.cur := rfl
@[simp] theorem State.setIrq_quantum (v : IrqAgent) : (s.setIrq v).quantum = s.quantum := rfl

@[simp] theorem State.setWdt_link (v : WdtAgent) : (s.setWdt v).link = s.link := rfl
@[simp] theorem State.setWdt_lock (v : WdtAgent) : (s.setWdt v).lock = s.lock := rfl
@[simp] theorem State.setWdt_sigPh (v : WdtAgent) : (s.setWdt v).sigPh = s.sigPh := rfl
@[simp] theorem State.setWdt_sigRd (v : WdtAgent) : (s.setWdt v).sigRd = s.sigRd := rfl
@[simp] theorem State.setWdt_wd (v : WdtAgent) : (s.setWdt v).wd = s.wd := rfl
@[simp] theorem State.setWdt_underrun (v : WdtAgent) : (s.setWdt v).underrun = s.underrun := rfl
@[simp] theorem State.setWdt_cfg (v : WdtAgent) : (s.setWdt v).cfg = s.cfg := rfl
@[simp] theorem State.setWdt_linkIndex (v : WdtAgent) : (s.setWdt v).linkIndex = s.linkIndex := rfl
@[simp] theorem State.setWdt_irqEnabled (v : WdtAgent) : (s.setWdt v).irqEnabled = s.irqEnabled := rfl
@[simp] theorem State.setWdt_pdActive (v : WdtAgent) : (s.setWdt v).pdActive = s.pdActive := rfl
@[simp] theorem State.setWdt_phyOn (v : WdtAgent) : (s.setWdt v).phyOn = s.phyOn := rfl
@[simp] theorem State.setWdt_irqBusy (v : WdtAgent) : (s.setWdt v).irqBusy = s.irqBusy := rfl
@[simp] theorem State.setWdt_now (v : WdtAgent) : (s.setWdt v).now = s.now := rfl
@[simp] theorem State.setWdt_hist (v : WdtAgent) : (s.setWdt v).hist = s.hist := rfl
@[simp] theorem State.setWdt_fault (v : WdtAgent) : (s.setWdt v).fault = s.fault := rfl
@[simp] theorem State.setWdt_callers (v : WdtAgent) : (s.setWdt v).callers = s.callers := rfl
@[simp] theorem State.setWdt_irq (v : WdtAgent) : (s.setWdt v).irq = s.irq := rfl
@[simp] theorem State.setWdt_wdt (v : WdtAgent) : (s.setWdt v).wdt = v := rfl
@[simp] theorem State.setWdt_mem (v : WdtAgent) : (s.setWdt v).mem = s.mem := rfl
@[simp] theorem State.setWdt_par (v : WdtAgent) : (s.setWdt v).par = s.par := rfl
@[simp] theorem State.setWdt_turns (v : WdtAgent) : (s.setWdt v).turns = s.turns := rfl
@[simp] theorem State.setWdt_turnDraws (v : WdtAgent) : (s.setWdt v).turnDraws = s.turnDraws := rfl
@[simp] theorem State.setWdt_answers (v : WdtAgent) : (s.setWdt v).answers = s.answers := rfl
@[simp] theorem State.setWdt_answerDraws (v : WdtAgent) : (s.setWdt v).answerDraws = s.answerDraws := rfl
@[simp] theorem State.setWdt_cur (v : WdtAgent) : (s.setWdt v).cur = s.cur := rfl
@[simp] theorem State.setWdt_quantum (v : WdtAgent) : (s.setWdt v).quantum = s.quantum := rfl

@[simp] theorem State.setMem_link (v : List Host.Cell) : (s.setMem v).link = s.link := rfl
@[simp] theorem State.setMem_lock (v : List Host.Cell) : (s.setMem v).lock = s.lock := rfl
@[simp] theorem State.setMem_sigPh (v : List Host.Cell) : (s.setMem v).sigPh = s.sigPh := rfl
@[simp] theorem State.setMem_sigRd (v : List Host.Cell) : (s.setMem v).sigRd = s.sigRd := rfl
@[simp] theorem State.setMem_wd (v : List Host.Cell) : (s.setMem v).wd = s.wd := rfl
@[simp] theorem State.setMem_underrun (v : List Host.Cell) : (s.setMem v).underrun = s.underrun := rfl
@[simp] theorem State.setMem_cfg (v : List Host.Cell) : (s.setMem v).cfg = s.cfg := rfl
@[simp] theorem State.setMem_linkIndex (v : List Host.Cell) : (s.setMem v).linkIndex = s.linkIndex := rfl
@[simp] theorem State.setMem_irqEnabled (v : List Host.Cell) : (s.setMem v).irqEnabled = s.irqEnabled := rfl
@[simp] theorem State.setMem_pdActive (v : List Host.Cell) : (s.setMem v).pdActive = s.pdActive := rfl
@[simp] theorem State.setMem_phyOn (v : List Host.Cell) : (s.setMem v).phyOn = s.phyOn := rfl
@[simp] theorem State.setMem_irqBusy (v : List Host.Cell) : (s.setMem v).irqBusy = s.irqBusy := rfl
@[simp] theorem State.setMem_now (v : List Host.Cell) : (s.setMem v).now = s.now := rfl
@[simp] theorem State.setMem_hist (v : List Host.Cell) : (s.setMem v).hist = s.hist := rfl
@[simp] theorem State.setMem_fault (v : List Host.Cell) : (s.setMem v).fault = s.fault := rfl
@[simp] theorem State.setMem_callers (v : List Host.Cell) : (s.setMem v).callers = s.callers := rfl
@[simp] theorem State.setMem_irq (v : List Host.Cell) : (s.setMem v).irq = s.irq := rfl
@[simp] theorem State.setMem_wdt (v : List Host.Cell) : (s.setMem v).wdt = s.wdt := rfl
@[simp] theorem State.setMem_mem (v : List Host.Cell) : (s.setMem v).mem = v := rfl
@[simp] theorem State.setMem_par (v : List Host.Cell) : (s.setMem v).par = s.par := rfl
@[simp] theorem State.setMem_turns (v : List Host.Cell) : (s.setMem v).turns = s.turns := rfl
@[simp] theorem State.setMem_turnDraws (v : List Host.Cell) : (s.setMem v).turnDraws = s.turnDraws := rfl
@[simp] theorem State.setMem_answers (v : List Host.Cell) : (s.setMem v).answers = s.answers := rfl
@[simp] theorem State.setMem_answerDraws (v : List Host.Cell) : (s.setMem v).answerDraws = s.answerDraws := rfl
@[simp] theorem State.setMem_cur (v : List Host.Cell) : (s.setMem v).cur = s.cur := rfl
@[simp] theorem State.setMem_quantum (v : List Host.Cell) : (s.setMem v).quantum = s.quantum := rfl

@[simp] theorem State.setAnswers_link (l : List Nat) (n : Nat) : (s.setAnswers l n).link = s.link := rfl
@[simp] theorem State.setAnswers_lock (l : List Nat) (n : Nat) : (s.setAnswers l n).lock = s.lock := rfl
@[simp] theorem State.setAnswers_sigPh (l : List Nat) (n : Nat) : (s.setAnswers l n).sigPh = s.sigPh := rfl
@[simp] theorem State.setAnswers_sigRd (l : List Nat) (n : Nat) : (s.setAnswers l n).sigRd = s.sigRd := rfl
@[simp] theorem State.setAnswers_wd (l : List Nat) (n : Nat) : (s.setAnswers l n).wd = s.wd := rfl
@[simp] theorem State.setAnswers_underrun (l : List Nat) (n : Nat) : (s.setAnswers l n).underrun = s.underrun := rfl
@[simp] theorem State.setAnswers_cfg (l : List Nat) (n : Nat) : (s.setAnswers l n).cfg = s.cfg := rfl
@[simp] theorem State.setAnswers_linkIndex (l : List Nat) (n : Nat) : (s.setAnswers l n).linkIndex = s.linkIndex := rfl
@[simp] theorem State.setAnswers_irqEnabled (l : List Nat) (n : Nat) : (s.setAnswers l n).irqEnabled = s.irqEnabled := rfl
@[simp] theorem State.setAnswers_pdActive (l : List Nat) (n : Nat) : (s.setAnswers l n).pdActive = s.pdActive := rfl
@[simp] theorem State.setAnswers_phyOn (l : List Nat) (n : Nat) : (s.setAnswers l n).phyOn = s.phyOn := rfl
@[simp] theorem State.setAnswers_irqBusy (l : List Nat) (n : Nat) : (s.setAnswers l n).irqBusy = s.irqBusy := rfl
@[simp] theorem State.setAnswers_now (l : List Nat) (n : Nat) : (s.setAnswers l n).now = s.now := rfl
@[simp] theorem State.setAnswers_hist (l : List Nat) (n : Nat) : (s.setAnswers l n).hist = s.hist := rfl
@[simp] theorem State.setAnswers_fault (l : List Nat) (n : Nat) : (s.setAnswers l n).fault = s.fault := rfl
@[simp] theorem State.setAnswers_callers (l : List Nat) (n : Nat) : (s.setAnswers l n).callers = s.callers := rfl
@[simp] theorem State.setAnswers_irq (l : List Nat) (n : Nat) : (s.setAnswers l n).irq = s.irq := rfl
@[simp] theorem State.setAnswers_wdt (l : List Nat) (n : Nat) : (s.setAnswers l n).wdt = s.wdt := rfl
@[simp] theorem State.setAnswers_mem (l : List Nat) (n : Nat) : (s.setAnswers l n).mem = s.mem := rfl
@[simp] theorem State.setAnswers_par (l : List Nat) (n : Nat) : (s.setAnswers l n).par = s.par := rfl
@[simp] theorem State.setAnswers_turns (l : List Nat) (n : Nat) : (s.setAnswers l n).turns = s.turns := rfl
@[simp] theorem State.setAnswers_turnDraws (l : List Nat) (n : Nat) : (s.setAnswers l n).turnDraws = s.turnDraws := rfl
@[simp] theorem State.setAnswers_answers (l : List Nat) (n : Nat) : (s.setAnswers l n).answers = l := rfl
@[simp] theorem State.setAnswers_answerDraws (l : List Nat) (n : Nat) : (s.setAnswers l n).answerDraws = n := rfl
@[simp] theorem State.setAnswers_cur (l : List Nat) (n : Nat) : (s.setAnswers l n).cur = s.cur := rfl
@[simp] theorem State.setAnswers_quantum (l : List Nat) (n : Nat) : (s.setAnswers l n).quantum = s.quantum := rfl

@[simp] theorem State.setTurns_link (l : List Turn) (n : Nat) : (s.setTurns l n).link = s.link := rfl
@[simp] theorem State.setTurns_lock (l : List Turn) (n : Nat) : (s.setTurns l n).lock = s.lock := rfl
@[simp] theorem State.setTurns_sigPh (l : List Turn) (n : Nat) : (s.setTurns l n).sigPh = s.sigPh := rfl
@[simp] theorem State.setTurns_sigRd (l : List Turn) (n : Nat) : (s.setTurns l n).sigRd = s.sigRd := rfl
@[simp] theorem State.setTurns_wd (l : List Turn) (n : Nat) : (s.setTurns l n).wd = s.wd := rfl
@[simp] theorem State.setTurns_underrun (l : List Turn) (n : Nat) : (s.setTurns l n).underrun = s.underrun := rfl
@[simp] theorem State.setTurns_cfg (l : List Turn) (n : Nat) : (s.setTurns l n).cfg = s.cfg := rfl
@[simp] theorem State.setTurns_linkIndex (l : List Turn) (n : Nat) : (s.setTurns l n).linkIndex = s.linkIndex := rfl
@[simp] theorem State.setTurns_irqEnabled (l : List Turn) (n : Nat) : (s.setTurns l n).irqEnabled = s.irqEnabled := rfl
@[simp] theorem State.setTurns_pdActive (l : List Turn) (n : Nat) : (s.setTurns l n).pdActive = s.pdActive := rfl
@[simp] theorem State.setTurns_phyOn (l : List Turn) (n : Nat) : (s.setTurns l n).phyOn = s.phyOn := rfl
@[simp] theorem State.setTurns_irqBusy (l : List Turn) (n : Nat) : (s.setTurns l n).irqBusy = s.irqBusy := rfl
@[simp] theorem State.setTurns_now (l : List Turn) (n : Nat) : (s.setTurns l n).now = s.now := rfl
@[simp] theorem State.setTurns_hist (l : List Turn) (n : Nat) : (s.setTurns l n).hist = s.hist := rfl
@[simp] theorem State.setTurns_fault (l : List Turn) (n : Nat) : (s.setTurns l n).fault = s.fault := rfl
@[simp] theorem State.setTurns_callers (l : List Turn) (n : Nat) : (s.setTurns l n).callers = s.callers := rfl
@[simp] theorem State.setTurns_irq (l : List Turn) (n : Nat) : (s.setTurns l n).irq = s.irq := rfl
@[simp] theorem State.setTurns_wdt (l : List Turn) (n : Nat) : (s.setTurns l n).wdt = s.wdt := rfl
@[simp] theorem State.setTurns_mem (l : List Turn) (n : Nat) : (s.setTurns l n).mem = s.mem := rfl
@[simp] theorem State.setTurns_par (l : List Turn) (n : Nat) : (s.setTurns l n).par = s.par := rfl
@[simp] theorem State.setTurns_turns (l : List Turn) (n : Nat) : (s.setTurns l n).turns = l := rfl
@[simp] theorem State.setTurns_turnDraws (l : List Turn) (n : Nat) : (s.setTurns l n).turnDraws = n := rfl
@[simp] theorem State.setTurns_answers (l : List Turn) (n : Nat) : (s.setTurns l n).answers = s.answers := rfl
@[simp] theorem State.setTurns_answerDraws (l : List Turn) (n : Nat) : (s.setTurns l n).answerDraws = s.answerDraws := rfl
@[simp] theorem State.setTurns_cur (l : List Turn) (n : Nat) : (s.setTurns l n).cur = s.cur := rfl
@[simp] theorem State.setTurns_quantum (l : List Turn) (n : Nat) : (s.setTurns l n).quantum = s.quantum := rfl

@[simp] theorem State.focus_link (a more : Nat) : (s.focus a more).link = s.link := rfl
@[simp] theorem State.focus_lock (a more : Nat) : (s.focus a more).lock = s.lock := rfl
@[simp] theorem State.focus_sigPh (a more : Nat) : (s.focus a more).sigPh = s.sigPh := rfl
@[simp] theorem State.focus_sigRd (a more : Nat) : (s.focus a more).sigRd = s.sigRd := rfl
@[simp] theorem State.focus_wd (a more : Nat) : (s.focus a more).wd = s.wd := rfl
@[simp] theorem State.focus_underrun (a more : Nat) : (s.focus a more).underrun = s.underrun := rfl
@[simp] theorem State.focus_cfg (a more : Nat) : (s.focus a more).cfg = s.cfg := rfl
@[simp] theorem State.focus_linkIndex (a more : Nat) : (s.focus a more).linkIndex = s.linkIndex := rfl
@[simp] theorem State.focus_irqEnabled (a more : Nat) : (s.focus a more).irqEnabled = s.irqEnabled := rfl
@[simp] theorem State.focus_pdActive (a more : Nat) : (s.focus a more).pdActive = s.pdActive := rfl
@[simp] theorem State.focus_phyOn (a more : Nat) : (s.focus a more).phyOn = s.phyOn := rfl
@[simp] theorem State.focus_irqBusy (a more : Nat) : (s.focus a more).irqBusy = s.irqBusy := rfl
@[simp] theorem State.focus_now (a more : Nat) : (s.focus a more).now = s.now := rfl
@[simp] theorem State.focus_hist (a more : Nat) : (s.focus a more).hist = s.hist := rfl
@[simp] theorem State.focus_fault (a more : Nat) : (s.focus a more).fault = s.fault := rfl
@[simp] theorem State.focus_callers (a more : Nat) : (s.focus a more).callers = s.callers := rfl
@[simp] theorem State.focus_irq (a more : Nat) : (s.focus a more).irq = s.irq := rfl
@[simp] theorem State.focus_wdt (a more : Nat) : (s.focus a more).wdt = s.wdt := rfl
@[simp] theorem State.focus_mem (a more : Nat) : (s.focus a more).mem = s.mem := rfl
@[simp] theorem State.focus_par (a more : Nat) : (s.focus a more).par = s.par := rfl
@[simp] theorem State.focus_turns (a more : Nat) : (s.focus a more).turns = s.turns := rfl
@[simp] theorem State.focus_turnDraws (a more : Nat) : (s.focus a more).turnDraws = s.turnDraws := rfl
@[simp] theorem State.focus_answers (a more : Nat) : (s.focus a more).answers = s.answers := rfl
@[simp] theorem State.focus_answerDraws (a more : Nat) : (s.focus a more).answerDraws = s.answerDraws := rfl
@[simp] theorem State.focus_cur (a more : Nat) : (s.focus a more).cur = a := rfl
@[simp] theorem State.focus_quantum (a more : Nat) : (s.focus a more).quantum = more := rfl

/-! ## Updates made of others -/

@[simp] theorem State.answered_link : (s.answered).link = s.link := by unfold State.answered; split <;> rfl
@[simp] theorem State.answered_lock : (s.answered).lock = s.lock := by unfold State.answered; split <;> rfl
@[simp] theorem State.answered_sigPh : (s.answered).sigPh = s.sigPh := by unfold State.answered; split <;> rfl
@[simp] theorem State.answered_sigRd : (s.answered).sigRd = s.sigRd := by unfold State.answered; split <;> rfl
@[simp] theorem State.answered_wd : (s.answered).wd = s.wd := by unfold State.answered; split <;> rfl
@[simp] theorem State.answered_underrun : (s.answered).underrun = s.underrun := by unfold State.answered; split <;> rfl
@[simp] theorem State.answered_cfg : (s.answered).cfg = s.cfg := by unfold State.answered; split <;> rfl
@[simp] theorem State.answered_linkIndex : (s.answered).linkIndex = s.linkIndex := by unfold State.answered; split <;> rfl
@[simp] theorem State.answered_irqEnabled : (s.answered).irqEnabled = s.irqEnabled := by unfold State.answered; split <;> rfl
@[simp] theorem State.answered_pdActive : (s.answered).pdActive = s.pdActive := by unfold State.answered; split <;> rfl
@[simp] theorem State.answered_phyOn : (s.answered).phyOn = s.phyOn := by unfold State.answered; split <;> rfl
@[simp] theorem State.answered_irqBusy : (s.answered).irqBusy = s.irqBusy := by unfold State.answered; split <;> rfl
@[simp] theorem State.answered_now : (s.answered).now = s.now := by unfold State.answered; split <;> rfl
@[simp] theorem State.answered_hist : (s.answered).hist = s.hist := by unfold State.answered; split <;> rfl
@[simp] theorem State.answered_fault : (s.answered).fault = s.fault := by unfold State.answered; split <;> rfl
@[simp] theorem State.answered_callers : (s.answered).callers = s.callers := by unfold State.answered; split <;> rfl
@[simp] theorem State.answered_irq : (s.answered).irq = s.irq := by unfold State.answered; split <;> rfl
@[simp] theorem State.answered_wdt : (s.answered).wdt = s.wdt := by unfold State.answered; split <;> rfl
@[simp] theorem State.answered_mem : (s.answered).mem = s.mem := by unfold State.answered; split <;> rfl
@[simp] theorem State.answered_par : (s.answered).par = s.par := by unfold State.answered; split <;> rfl
@[simp] theorem State.answered_turns : (s.answered).turns = s.turns := by unfold State.answered; split <;> rfl
@[simp] theorem State.answered_turnDraws : (s.answered).turnDraws = s.turnDraws := by unfold State.answered; split <;> rfl
@[simp] theorem State.answered_cur : (s.answered).cur = s.cur := by unfold State.answered; split <;> rfl
@[simp] theorem State.answered_quantum : (s.answered).quantum = s.quantum := by unfold State.answered; split <;> rfl

@[simp] theorem State.unlock_link (a : Nat) : (s.unlock a).link = s.link := by unfold State.unlock; split <;> rfl
@[simp] theorem State.unlock_sigPh (a : Nat) : (s.unlock a).sigPh = s.sigPh := by unfold State.unlock; split <;> rfl
@[simp] theorem State.unlock_sigRd (a : Nat) : (s.unlock a).sigRd = s.sigRd := by unfold State.unlock; split <;> rfl
@[simp] theorem State.unlock_wd (a : Nat) : (s.unlock a).wd = s.wd := by unfold State.unlock; split <;> rfl
@[simp] theorem State.unlock_underrun (a : Nat) : (s.unlock a).underrun = s.underrun := by unfold State.unlock; split <;> rfl
@[simp] theorem State.unlock_cfg (a : Nat) : (s.unlock a).cfg = s.cfg := by unfold State.unlock; split <;> rfl
@[simp] theorem State.unlock_linkIndex (a : Nat) : (s.unlock a).linkIndex = s.linkIndex := by unfold State.unlock; split <;> rfl
@[simp] theorem State.unlock_irqEnabled (a : Nat) : (s.unlock a).irqEnabled = s.irqEnabled := by unfold State.unlock; split <;> rfl
@[simp] theorem State.unlock_pdActive (a : Nat) : (s.unlock a).pdActive = s.pdActive := by unfold State.unlock; split <;> rfl
@[simp] theorem State.unlock_phyOn (a : Nat) : (s.unlock a).phyOn = s.phyOn := by unfold State.unlock; split <;> rfl
@[simp] theorem State.unlock_irqBusy (a : Nat) : (s.unlock a).irqBusy = s.irqBusy := by unfold State.unlock; split <;> rfl
@[simp] theorem State.unlock_now (a : Nat) : (s.unlock a).now = s.now := by unfold State.unlock; split <;> rfl
@[simp] theorem State.unlock_hist (a : Nat) : (s.unlock a).hist = s.hist := by unfold State.unlock; split <;> rfl
@[simp] theorem State.unlock_fault (a : Nat) : (s.unlock a).fault = s.fault := by unfold State.unlock; split <;> rfl
@[simp] theorem State.unlock_callers (a : Nat) : (s.unlock a).callers = s.callers := by unfold State.unlock; split <;> rfl
@[simp] theorem State.unlock_irq (a : Nat) : (s.unlock a).irq = s.irq := by unfold State.unlock; split <;> rfl
@[simp] theorem State.unlock_wdt (a : Nat) : (s.unlock a).wdt = s.wdt := by unfold State.unlock; split <;> rfl
@[simp] theorem State.unlock_mem (a : Nat) : (s.unlock a).mem = s.mem := by unfold State.unlock; split <;> rfl
@[simp] theorem State.unlock_par (a : Nat) : (s.unlock a).par = s.par := by unfold State.unlock; split <;> rfl
@[simp] theorem State.unlock_turns (a : Nat) : (s.unlock a).turns = s.turns := by unfold State.unlock; split <;> rfl
@[simp] theorem State.unlock_turnDraws (a : Nat) : (s.unlock a).turnDraws = s.turnDraws := by unfold State.unlock; split <;> rfl
@[simp] theorem State.unlock_answers (a : Nat) : (s.unlock a).answers = s.answers := by unfold State.unlock; split <;> rfl
@[simp] theorem State.unlock_answerDraws (a : Nat) : (s.unlock a).answerDraws = s.answerDraws := by unfold State.unlock; split <;> rfl
@[simp] theorem State.unlock_cur (a : Nat) : (s.unlock a).cur = s.cur := by unfold State.unlock; split <;> rfl
@[simp] theorem State.unlock_quantum (a : Nat) : (s.unlock a).quantum = s.quantum := by unfold State.unlock; split <;> rfl

@[simp] theorem State.modifyCaller_link (a : Nat) (f : Caller → Caller) : (s.modifyCaller a f).link = s.link := by unfold State.modifyCaller; split <;> rfl
@[simp] theorem State.modifyCaller_lock (a : Nat) (f : Caller → Caller) : (s.modifyCaller a f).lock = s.lock := by unfold State.modifyCaller; split <;> rfl
@[simp] theorem State.modifyCaller_sigPh (a : Nat) (f : Caller → Caller) : (s.modifyCaller a f).sigPh = s.sigPh := by unfold State.modifyCaller; split <;> rfl
@[simp] theorem State.modifyCaller_sigRd (a : Nat) (f : Caller → Caller) : (s.modifyCaller a f).sigRd = s.sigRd := by unfold State.modifyCaller; split <;> rfl
@[simp] theorem State.modifyCaller_wd (a : Nat) (f : Caller → Caller) : (s.modifyCaller a f).wd = s.wd := by unfold State.modifyCaller; split <;> rfl
@[simp] theorem State.modifyCaller_underrun (a : Nat) (f : Caller → Caller) : (s.modifyCaller a f).underrun = s.underrun := by unfold State.modifyCaller; split <;> rfl
@[simp] theorem State.modifyCaller_cfg (a : Nat) (f : Caller → Caller) : (s.modifyCaller a f).cfg = s.cfg := by unfold State.modifyCaller; split <;> rfl
@[simp] theorem State.modifyCaller_linkIndex (a : Nat) (f : Caller → Caller) : (s.modifyCaller a f).linkIndex = s.linkIndex := by unfold State.modifyCaller; split <;> rfl
@[simp] theorem State.modifyCaller_irqEnabled (a : Nat) (f : Caller → Caller) : (s.modifyCaller a f).irqEnabled = s.irqEnabled := by unfold State.modifyCaller; split <;> rfl
@[simp] theorem State.modifyCaller_pdActive (a : Nat) (f : Caller → Caller) : (s.modifyCaller a f).pdActive = s.pdActive := by unfold State.modifyCaller; split <;> rfl
@[simp] theorem State.modifyCaller_phyOn (a : Nat) (f : Caller → Caller) : (s.modifyCaller a f).phyOn = s.phyOn := by unfold State.modifyCaller; split <;> rfl
@[simp] theorem State.modifyCaller_irqBusy (a : Nat) (f : Caller → Caller) : (s.modifyCaller a f).irqBusy = s.irqBusy := by unfold State.modifyCaller; split <;> rfl
@[simp] theorem State.modifyCaller_now (a : Nat) (f : Caller → Caller) : (s.modifyCaller a f).now = s.now := by unfold State.modifyCaller; split <;> rfl
@[simp] theorem State.modifyCaller_hist (a : Nat) (f : Caller → Caller) : (s.modifyCaller a f).hist = s.hist := by unfold State.modifyCaller; split <;> rfl
@[simp] theorem State.modifyCaller_fault (a : Nat) (f : Caller → Caller) : (s.modifyCaller a f).fault = s.fault := by unfold State.modifyCaller; split <;> rfl
@[simp] theorem State.modifyCaller_irq (a : Nat) (f : Caller → Caller) : (s.modifyCaller a f).irq = s.irq := by unfold State.modifyCaller; split <;> rfl
@[simp] theorem State.modifyCaller_wdt (a : Nat) (f : Caller → Caller) : (s.modifyCaller a f).wdt = s.wdt := by unfold State.modifyCaller; split <;> rfl
@[simp] theorem State.modifyCaller_mem (a : Nat) (f : Caller → Caller) : (s.modifyCaller a f).mem = s.mem := by unfold State.modifyCaller; split <;> rfl
@[simp] theorem State.modifyCaller_par (a : Nat) (f : Caller → Caller) : (s.modifyCaller a f).par = s.par := by unfold State.modifyCaller; split <;> rfl
@[simp] theorem State.modifyCaller_turns (a : Nat) (f : Caller → Caller) : (s.modifyCaller a f).turns = s.turns := by unfold State.modifyCaller; split <;> rfl
@[simp] theorem State.modifyCaller_turnDraws (a : Nat) (f : Caller → Caller) : (s.modifyCaller a f).turnDraws = s.turnDraws := by unfold State.modifyCaller; split <;> rfl
@[simp] theorem State.modifyCaller_answers (a : Nat) (f : Caller → Caller) : (s.modifyCaller a f).answers = s.answers := by unfold State.modifyCaller; split <;> rfl
@[simp] theorem State.modifyCaller_answerDraws (a : Nat) (f : Caller → Caller) : (s.modifyCaller a f).answerDraws = s.answerDraws := by unfold State.modifyCaller; split <;> rfl
@[simp] theorem State.modifyCaller_cur (a : Nat) (f : Caller → Caller) : (s.modifyCaller a f).cur = s.cur := by unfold State.modifyCaller; split <;> rfl
@[simp] theorem State.modifyCaller_quantum (a : Nat) (f : Caller → Caller) : (s.modifyCaller a f).quantum = s.quantum := by unfold State.modifyCaller; split <;> rfl

@[simp] theorem State.act_link (a : Action) : (s.act a).link = s.link := by cases a <;> rfl
@[simp] theorem State.act_lock (a : Action) : (s.act a).lock = s.lock := by cases a <;> rfl
@[simp] theorem State.act_sigPh (a : Action) : (s.act a).sigPh = s.sigPh := by cases a <;> rfl
@[simp] theorem State.act_sigRd (a : Action) : (s.act a).sigRd = s.sigRd := by cases a <;> rfl
@[simp] theorem State.act_wd (a : Action) : (s.act a).wd = s.wd := by cases a <;> rfl
@[simp] theorem State.act_underrun (a : Action) : (s.act a).underrun = s.underrun := by cases a <;> rfl
@[simp] theorem State.act_cfg (a : Action) : (s.act a).cfg = s.cfg := by cases a <;> rfl
@[simp] theorem State.act_linkIndex (a : Action) : (s.act a).linkIndex = s.linkIndex := by cases a <;> rfl
@[simp] theorem State.act_irqBusy (a : Action) : (s.act a).irqBusy = s.irqBusy := by cases a <;> rfl
@[simp] theorem State.act_now (a : Action) : (s.act a).now = s.now := by cases a <;> rfl
@[simp] theorem State.act_hist (a : Action) : (s.act a).hist = s.hist ++ [.act a] := by cases a <;> rfl
@[simp] theorem State.act_fault (a : Action) : (s.act a).fault = s.fault := by cases a <;> rfl
@[simp] theorem State.act_callers (a : Action) : (s.act a).callers = s.callers := by cases a <;> rfl
@[simp] theorem State.act_irq (a : Action) : (s.act a).irq = s.irq := by cases a <;> rfl
@[simp] theorem State.act_wdt (a : Action) : (s.act a).wdt = s.wdt := by cases a <;> rfl
@[simp] theorem State.act_mem (a : Action) : (s.act a).mem = s.mem := by cases a <;> rfl
@[simp] theorem State.act_par (a : Action) : (s.act a).par = s.par := by cases a <;> rfl
@[simp] theorem State.act_turns (a : Action) : (s.act a).turns = s.turns := by cases a <;> rfl
@[simp] theorem State.act_turnDraws (a : Action) : (s.act a).turnDraws = s.turnDraws := by cases a <;> rfl
@[simp] theorem State.act_answers (a : Action) : (s.act a).answers = s.answers := by cases a <;> rfl
@[simp] theorem State.act_answerDraws (a : Action) : (s.act a).answerDraws = s.answerDraws := by cases a <;> rfl
@[simp] theorem State.act_cur (a : Action) : (s.act a).cur = s.cur := by cases a <;> rfl
@[simp] theorem State.act_quantum (a : Action) : (s.act a).quantum = s.quantum := by cases a <;> rfl

@[simp] theorem State.turnTaken_link : (s.turnTaken).link = s.link := by unfold State.turnTaken; split <;> rfl
@[simp] theorem State.turnTaken_lock : (s.turnTaken).lock = s.lock := by unfold State.turnTaken; split <;> rfl
@[simp] theorem State.turnTaken_sigPh : (s.turnTaken).sigPh = s.sigPh := by unfold State.turnTaken; split <;> rfl
@[simp] theorem State.turnTaken_sigRd : (s.turnTaken).sigRd = s.sigRd := by unfold State.turnTaken; split <;> rfl
@[simp] theorem State.turnTaken_wd : (s.turnTaken).wd = s.wd := by unfold State.turnTaken; split <;> rfl
@[simp] theorem State.turnTaken_underrun : (s.turnTaken).underrun = s.underrun := by unfold State.turnTaken; split <;> rfl
@[simp] theorem State.turnTaken_cfg : (s.turnTaken).cfg = s.cfg := by unfold State.turnTaken; split <;> rfl
@[simp] theorem State.turnTaken_linkIndex : (s.turnTaken).linkIndex = s.linkIndex := by unfold State.turnTaken; split <;> rfl
@[simp] theorem State.turnTaken_irqEnabled : (s.turnTaken).irqEnabled = s.irqEnabled := by unfold State.turnTaken; split <;> rfl
@[simp] theorem State.turnTaken_pdActive : (s.turnTaken).pdActive = s.pdActive := by unfold State.turnTaken; split <;> rfl
@[simp] theorem State.turnTaken_phyOn : (s.turnTaken).phyOn = s.phyOn := by unfold State.turnTaken; split <;> rfl
@[simp] theorem State.turnTaken_irqBusy : (s.turnTaken).irqBusy = s.irqBusy := by unfold State.turnTaken; split <;> rfl
@[simp] theorem State.turnTaken_now : (s.turnTaken).now = s.now := by unfold State.turnTaken; split <;> rfl
@[simp] theorem State.turnTaken_hist : (s.turnTaken).hist = s.hist := by unfold State.turnTaken; split <;> rfl
@[simp] theorem State.turnTaken_fault : (s.turnTaken).fault = s.fault := by unfold State.turnTaken; split <;> rfl
@[simp] theorem State.turnTaken_callers : (s.turnTaken).callers = s.callers := by unfold State.turnTaken; split <;> rfl
@[simp] theorem State.turnTaken_irq : (s.turnTaken).irq = s.irq := by unfold State.turnTaken; split <;> rfl
@[simp] theorem State.turnTaken_wdt : (s.turnTaken).wdt = s.wdt := by unfold State.turnTaken; split <;> rfl
@[simp] theorem State.turnTaken_mem : (s.turnTaken).mem = s.mem := by unfold State.turnTaken; split <;> rfl
@[simp] theorem State.turnTaken_par : (s.turnTaken).par = s.par := by unfold State.turnTaken; split <;> rfl
@[simp] theorem State.turnTaken_answers : (s.turnTaken).answers = s.answers := by unfold State.turnTaken; split <;> rfl
@[simp] theorem State.turnTaken_answerDraws : (s.turnTaken).answerDraws = s.answerDraws := by unfold State.turnTaken; split <;> rfl
@[simp] theorem State.turnTaken_cur : (s.turnTaken).cur = s.cur := by unfold State.turnTaken; split <;> rfl
@[simp] theorem State.turnTaken_quantum : (s.turnTaken).quantum = s.quantum := by unfold State.turnTaken; split <;> rfl

@[simp] theorem State.panel_eq (cb : PanelCb) : s.panel cb = s.record (.panel cb) := rfl
@[simp] theorem State.resetPh_eq : s.resetPh = s.setSigPh ⟨false⟩ := rfl
@[simp] theorem State.firePh_eq : s.firePh = s.setSigPh ⟨true⟩ := rfl
@[simp] theorem State.resetRd_eq : s.resetRd = s.setSigRd ⟨false⟩ := rfl
@[simp] theorem State.fireRd_eq : s.fireRd = s.setSigRd ⟨true⟩ := rfl
@[simp] theorem State.armWd_eq : s.armWd = s.setWd ⟨true, s.now + s.par.wrTimeout.val⟩ := rfl
@[simp] theorem State.disarmWd_eq : s.disarmWd = s.setWd { s.wd with armed := false } := rfl
@[simp] theorem State.countUnderrun_eq : s.countUnderrun = s.setUnderrun (s.underrun + 1) := rfl
@[simp] theorem State.memWrite_eq (buf : Option BufHandle) (i : Nat) (v : Byte) : s.memWrite buf i v = s.setMem (Memory.write s.mem (bufAddr buf i) v) := rfl

end Sys2Proof.Machine
end

