-- ==== Sys2Proof/Laws/Memory.lean ====
section
/-! SUPPORT. Laws of the caller-buffer memory: a read after a write, and that every memory operation keeps the canonical
form. -/

namespace Sys2Proof.Machine

@[simp] theorem Memory.read_nil (a : Nat) : Memory.read [] a = Memory.unlisted := rfl

theorem Memory.read_consCell_self (a : Nat) (v : Byte) (t : List Host.Cell) (h : Memory.read t a = Memory.unlisted) :
    Memory.read (Memory.consCell a v t) a = v := by
  unfold Memory.consCell
  split
  · simp_all
  · simp [Memory.read]

theorem Memory.read_consCell_ne {a x : Nat} (v : Byte) (t : List Host.Cell) (h : x ≠ a) :
    Memory.read (Memory.consCell a v t) x = Memory.read t x := by
  unfold Memory.consCell
  split
  · rfl
  · simp [Memory.read, h]

/-- A canonical memory lists nothing below its first address. -/
theorem Memory.read_below {b : Nat} {w : Byte} {t : List Host.Cell} {a : Nat} (h : Memory.wf ((b, w) :: t) = true)
    (hab : a < b) : Memory.read ((b, w) :: t) a = Memory.unlisted := by
  induction t generalizing b w with
  | nil => simp [Memory.read, hab.ne]
  | cons c t ih =>
    obtain ⟨c, v⟩ := c
    simp only [Memory.wf, Bool.and_eq_true, decide_eq_true_eq] at h
    have := ih h.2 (hab.trans h.1.2)
    simpa [Memory.read, hab.ne] using this

theorem Memory.wf_tail {b : Nat} {w : Byte} {t : List Host.Cell} (h : Memory.wf ((b, w) :: t) = true) :
    Memory.wf t = true := by
  cases t with
  | nil => rfl
  | cons c t =>
    simp only [Memory.wf, Bool.and_eq_true] at h
    exact h.2

/-- A write reads back. -/
theorem Memory.read_write_self (m : List Host.Cell) (a : Nat) (v : Byte) (h : Memory.wf m = true) :
    Memory.read (Memory.write m a v) a = v := by
  induction m with
  | nil => exact Memory.read_consCell_self a v [] rfl
  | cons c t ih =>
    obtain ⟨b, w⟩ := c
    unfold Memory.write
    split
    case isTrue hlt => exact Memory.read_consCell_self a v _ (Memory.read_below h hlt)
    case isFalse hge =>
      split
      case isTrue hab =>
        subst hab
        refine Memory.read_consCell_self a v t ?_
        cases t with
        | nil => rfl
        | cons c t =>
          obtain ⟨c, u⟩ := c
          have h1 := h
          simp only [Memory.wf, Bool.and_eq_true, decide_eq_true_eq] at h1
          exact Memory.read_below (Memory.wf_tail h) h1.1.2
      case isFalse hne => simp [Memory.read, hne, ih (Memory.wf_tail h)]

/-- A write leaves every other address alone. -/
theorem Memory.read_write_ne (m : List Host.Cell) {a x : Nat} (v : Byte) (h : x ≠ a) :
    Memory.read (Memory.write m a v) x = Memory.read m x := by
  induction m with
  | nil => exact Memory.read_consCell_ne v [] h
  | cons c t ih =>
    obtain ⟨b, w⟩ := c
    unfold Memory.write
    split
    · exact Memory.read_consCell_ne v _ h
    · split
      case isTrue hab => subst hab; simp [Memory.read_consCell_ne v t h, Memory.read, h]
      case isFalse => simp [Memory.read, ih]

/-- The addresses a write lists are the old ones and its own. -/
theorem Memory.write_head_gt {b : Nat} {w : Byte} {t : List Host.Cell} {a : Nat} {v : Byte}
    (h : Memory.wf ((b, w) :: t) = true) (hba : b < a) : Memory.wf ((b, w) :: Memory.write t a v) = true := by
  induction t generalizing b w with
  | nil =>
    simp only [Memory.wf, decide_eq_true_eq] at h
    unfold Memory.write Memory.consCell
    split
    · simp [Memory.wf, h]
    · rename_i hv; simp [Memory.wf, h, hba, hv]
  | cons c t ih =>
    obtain ⟨c, u⟩ := c
    have ht := Memory.wf_tail h
    have h1 := h
    simp only [Memory.wf, Bool.and_eq_true, decide_eq_true_eq] at h1
    unfold Memory.write
    split
    case isTrue hlt =>
      unfold Memory.consCell
      split
      · exact h
      · rename_i hv
        simp [Memory.wf, h1.1.1, hba, hv, hlt, ht]
    case isFalse hge =>
      split
      case isTrue hac =>
        subst hac
        unfold Memory.consCell
        split
        · cases t with
          | nil => simp [Memory.wf, h1.1.1]
          | cons d t =>
            obtain ⟨d, x⟩ := d
            simp only [Memory.wf, Bool.and_eq_true, decide_eq_true_eq] at ht
            simp [Memory.wf, h1.1.1, hba.trans ht.1.2, ht.2]
        · rename_i hv
          cases t with
          | nil => simp [Memory.wf, h1.1.1, hba, hv]
          | cons d t =>
            obtain ⟨d, x⟩ := d
            simp only [Memory.wf, Bool.and_eq_true, decide_eq_true_eq] at ht
            simp [Memory.wf, h1.1.1, hba, hv, ht.1.2, ht.2]
      case isFalse hne =>
        have hca : c < a := by omega
        simp [Memory.wf, h1.1.1, h1.1.2, ih ht hca]

/-- Every write keeps the canonical form. -/
theorem Memory.wf_write (m : List Host.Cell) (a : Nat) (v : Byte) (h : Memory.wf m = true) :
    Memory.wf (Memory.write m a v) = true := by
  cases m with
  | nil =>
    unfold Memory.write Memory.consCell
    split
    · rfl
    · rename_i hv; simp [Memory.wf, hv]
  | cons c t =>
    obtain ⟨b, w⟩ := c
    rcases Nat.lt_trichotomy a b with hlt | heq | hgt
    · simp only [Memory.write, hlt, if_true, Memory.consCell]
      split
      · exact h
      · rename_i hv; simp [Memory.wf, hv, hlt, h]
    · subst heq
      simp only [Memory.write, lt_irrefl, if_false, if_true, Memory.consCell]
      split
      · exact Memory.wf_tail h
      · rename_i hv
        cases t with
        | nil => simp [Memory.wf, hv]
        | cons d t =>
          obtain ⟨d, x⟩ := d
          simp only [Memory.wf, Bool.and_eq_true, decide_eq_true_eq] at h
          simp [Memory.wf, hv, h.1.2, h.2]
    · have h1 : ¬ a < b := by omega
      have h2 : a ≠ b := by omega
      simpa [Memory.write, h1, h2] using Memory.write_head_gt (v := v) h hgt

/-- Storing a byte of a caller buffer keeps the canonical form. -/
theorem State.memWrite_wf (s : State) (buf : Option BufHandle) (i : Nat) (v : Byte) (h : Memory.wf s.mem = true) :
    Memory.wf (s.memWrite buf i v).mem = true := Memory.wf_write _ _ _ h

/-- A byte stored in a caller buffer reads back. -/
theorem State.memRead_memWrite_self (s : State) (buf : Option BufHandle) (i : Nat) (v : Byte)
    (h : Memory.wf s.mem = true) : (s.memWrite buf i v).memRead buf i = v := Memory.read_write_self _ _ _ h

/-- The memory after attach is canonical. -/
theorem State.reset_mem_wf : Memory.wf State.reset.mem = true := rfl

end Sys2Proof.Machine
end

