-- ==== Sys2Proof/Laws/Ops.lean ====
section
/-! SUPPORT. What each shared operation can do, said once: a proof about an instruction cites these and does not unfold the
operation. -/

namespace Sys2Proof.Machine

/-! ## Reading a descriptor -/

/-- A descriptor that the decoder reads is read so by every implementation. -/
theorem decodeRequest_of_ok {p : Params} {r : Request} {i : Instr} (h : decode r = .ok i) :
    decodeRequest p r = .ok i := by simp [decodeRequest, h]

/-- With the capability an implementation reads what the decoder reads. -/
theorem decodeRequest_of_hasDoze {p : Params} (h : p.hasDoze = true) (r : Request) : decodeRequest p r = decode r := by
  unfold decodeRequest
  split
  · rename_i i hi; exact hi.symm
  · rename_i e he; simp [h, he]

/-- Without the capability the codes 0x4 and 0x5 are read whatever the other bits are. -/
theorem decodeRequest_of_reserved {p : Params} {r : Request} (h : p.hasDoze = false) :
    (r.op.toNat = 0x4 → decodeRequest p r = .ok .doze) ∧ (r.op.toNat = 0x5 → decodeRequest p r = .ok .dozeSuspend) := by
  refine ⟨fun hop => ?_, fun hop => ?_⟩ <;>
    (simp only [decodeRequest, decode, decodePlain, hop, h]; split_ifs <;> rfl)

/-! ## Register Interface, lock and wait -/

/-- A register primitive goes on exactly with power on, one event later (rule R296). -/
theorem reg_of_power {F : Type} {s : State} (h : s.pdActive = true) (e : Event) (k : State → Micro F) :
    reg s e k = k (s.record e) := by simp [reg, h]

/-- Without power a register primitive is the fault of rule R296. -/
theorem reg_of_no_power {F : Type} {s : State} (h : s.pdActive = false) (e : Event) (k : State → Micro F) :
    reg s e k = .fault .noPower := by simp [reg, h]

/-- An answered register primitive goes on exactly with power on. -/
theorem regAsk_of_power {F α : Type} {s : State} (h : s.pdActive = true) (read : Nat → α) (e : α → Event)
    (k : α → State → Micro F) : regAsk s read e k = k (read s.answer) (s.answered.record (e (read s.answer))) := by
  simp [regAsk, h]

/-- Without power an answered register primitive is the fault of rule R296. -/
theorem regAsk_of_no_power {F α : Type} {s : State} (h : s.pdActive = false) (read : Nat → α) (e : α → Event)
    (k : α → State → Micro F) : regAsk s read e k = .fault .noPower := by simp [regAsk, h]

/-- A dump goes on exactly with power on, one event later (rule R290). -/
theorem dump_of_power {F : Type} {s : State} (h : s.pdActive = true) (c : DumpCause) (k : State → Micro F) :
    dump s c k = k (s.record (.dump c)) := reg_of_power h _ k

/-- Without power a dump is the fault of rule R296. -/
theorem dump_of_no_power {F : Type} {s : State} (h : s.pdActive = false) (c : DumpCause) (k : State → Micro F) :
    dump s c k = .fault .noPower := reg_of_no_power h _ k

/-- `lock()` takes a free lock (rule R71). -/
theorem lockThen_of_free {F : Type} (a : Nat) {s : State} (h : s.lock = .free) (k : State → Micro F) :
    lockThen a s k = k (s.setLock (.held a)) := by simp [lockThen, h]

/-- `lock()` is not enabled while the lock is held (rule R71). -/
theorem lockThen_of_held (a : Nat) {F : Type} {s : State} {b : Nat} (h : s.lock = .held b) (k : State → Micro F) :
    lockThen a s k = .blocked := by simp [lockThen, h]

/-- A micro-step is never kept back while its agent does not hold the lock. -/
theorem unlessStuck_of_not_own {F : Type} {a : Nat} {s : State} (h : s.lock ≠ .held a) (ends : Bool) (m : Micro F) :
    unlessStuck a s ends m = m := by simp [unlessStuck, h]

/-- A micro-step that would not end the operation is never kept back. -/
theorem unlessStuck_of_not_ends {F : Type} (a : Nat) (s : State) (m : Micro F) : unlessStuck a s false m = m := by
  simp [unlessStuck]

/-- A micro-step that would end the operation is not enabled under its agent's own lock (rule R336). -/
theorem unlessStuck_of_own {F : Type} {a : Nat} {s : State} (h : s.lock = .held a) (m : Micro F) :
    unlessStuck a s true m = .blocked := by simp [unlessStuck, h]

/-- The holder's `unlock()` frees the lock (rule R71). -/
theorem unlock_lock_of_holder {s : State} {a : Nat} (h : s.lock = .held a) : (s.unlock a).lock = .free := by
  simp [State.unlock, h]

/-- `unlock()` by the holder is the write of a free lock. -/
theorem unlock_of_holder {s : State} {a : Nat} (h : s.lock = .held a) : s.unlock a = s.setLock .free := by
  simp [State.unlock, h]

/-- A wait is not enabled before its flag or its time (rule R236). -/
theorem waitThen_of_neither {F : Type} {s : State} {t0 limit : Nat} (h : s.now < t0 + limit)
    (onSignal onTimeout : State → Micro F) : waitThen s false t0 limit onSignal onTimeout = .blocked := by
  simp [waitThen, Nat.not_le.mpr h]

/-- A wait whose flag is set before its time ends signaled (rule R236). -/
theorem waitThen_of_signal {F : Type} {s : State} {t0 limit : Nat} (h : s.now < t0 + limit)
    (onSignal onTimeout : State → Micro F) : waitThen s true t0 limit onSignal onTimeout = onSignal s := by
  simp [waitThen, Nat.not_le.mpr h]

/-- A wait whose time has come with its flag false ends timed out (rule R236). -/
theorem waitThen_of_timeout {F : Type} {s : State} {t0 limit : Nat} (h : t0 + limit ≤ s.now)
    (onSignal onTimeout : State → Micro F) : waitThen s false t0 limit onSignal onTimeout = onTimeout s := by
  simp [waitThen, h]

/-- With both conditions true the environment says which outcome is taken (rule R237). -/
theorem waitThen_of_tie {F : Type} {s : State} {t0 limit : Nat} (h : t0 + limit ≤ s.now)
    (onSignal onTimeout : State → Micro F) :
    waitThen s true t0 limit onSignal onTimeout =
      if asBool s.answer then onTimeout s.answered else onSignal s.answered := by
  simp [waitThen, h]

/-- An answer that is listed is the one given, and is used up (rule R64). -/
theorem answer_of_cons {s : State} {n : Nat} {rest : List Nat} (h : s.answers = n :: rest) :
    s.answer = n ∧ s.answered = s.setAnswers rest s.answerDraws := by
  simp [State.answer, State.answered, h]

/-! ## Caller agents -/

/-- The record of the agent that was changed. -/
theorem modifyCaller_callers {s : State} {a : Nat} {c : Caller} (h : s.callers[a]? = some c) (f : Caller → Caller) :
    (s.modifyCaller a f).callers = s.callers.set a (f c) := by simp [State.modifyCaller, h]

/-- The records of the other agents are left alone (rule R22). -/
theorem modifyCaller_callers_ne (s : State) {a b : Nat} (h : b ≠ a) (f : Caller → Caller) :
    (s.modifyCaller a f).callers[b]? = s.callers[b]? := by
  unfold State.modifyCaller
  split
  · rfl
  · simp [h.symm]

/-- The number of agents does not change. -/
theorem modifyCaller_length (s : State) (a : Nat) (f : Caller → Caller) :
    (s.modifyCaller a f).callers.length = s.callers.length := by
  unfold State.modifyCaller
  split <;> simp

/-! ## Carrying out an operation -/

theorem burst_zero {F : Type} (a : Nat) (wrap : F → Frame) (micro : Nat → F → State → Micro F) (f : F) (s : State) :
    burst a wrap micro 0 f s = .next (s.saveTop a (wrap f)) := rfl

/-- One micro-step of a burst. -/
theorem burst_succ {F : Type} (a : Nat) (wrap : F → Frame) (micro : Nat → F → State → Micro F) (n : Nat) (f : F)
    (s : State) :
    burst a wrap micro (n + 1) f s =
      match micro a f s with
      | .blocked => .next (s.saveTop a (wrap f))
      | .fault r => .fault r
      | .cont f' s' => burst a wrap micro n f' s'
      | .ret r s' => .next (s'.deliver a r) := rfl

/-- A burst that ends in a next state: what every micro-step keeps and every ending turns into `Q` holds of it. The one
induction over micro-steps. -/
theorem burst_next {F : Type} {a : Nat} {wrap : F → Frame} {micro : Nat → F → State → Micro F} (P : F → State → Prop)
    (Q : State → Prop) (hcont : ∀ f s f' s', P f s → micro a f s = .cont f' s' → P f' s')
    (hsave : ∀ f s, P f s → Q (s.saveTop a (wrap f)))
    (hret : ∀ f s r s', P f s → micro a f s = .ret r s' → Q (s'.deliver a r)) {n : Nat} {f : F} {s t : State}
    (hP : P f s) (h : burst a wrap micro n f s = .next t) : Q t := by
  induction n generalizing f s with
  | zero => cases h; exact hsave f s hP
  | succ n ih =>
    rw [burst_succ] at h
    split at h
    · cases h; exact hsave f s hP
    · cases h
    · rename_i f' s' hm; exact ih (hcont f s f' s' hP hm) h
    · rename_i r s' hm; cases h; exact hret f s r s' hP hm

/-- A burst that ends in a fault: some micro-step of it faults, in a state that every earlier micro-step has kept. -/
theorem burst_fault {F : Type} {a : Nat} {wrap : F → Frame} {micro : Nat → F → State → Micro F} (P : F → State → Prop)
    (hcont : ∀ f s f' s', P f s → micro a f s = .cont f' s' → P f' s') {n : Nat} {f : F} {s : State} {r : Fault}
    (hP : P f s) (h : burst a wrap micro n f s = .fault r) : ∃ f' s', P f' s' ∧ micro a f' s' = .fault r := by
  induction n generalizing f s with
  | zero => cases h
  | succ n ih =>
    rw [burst_succ] at h
    split at h
    · cases h
    · rename_i hm; cases h; exact ⟨f, s, hP, hm⟩
    · rename_i f' s' hm; exact ih (hcont f s f' s' hP hm) h
    · cases h

/-- What a turn given to an operation can be: no agent, an acceptance, or going on with the operation in flight. -/
theorem conduct_cases {F : Type} {refusal : Option Refusal} {start : Option F} {view : Frame → Option F}
    {wrap : F → Frame} {micro : Nat → F → State → Micro F} {s : State} {o : Host.Outcome State Fault Refusal}
    (h : conduct refusal start view wrap micro s = o) :
    (s.callers[s.cur]? = none ∧ o = .next s) ∨
    (∃ c, s.callers[s.cur]? = some c ∧ c.accepts = true ∧
      ((∃ r, refusal = some r ∧ o = .refused r) ∨
       (refusal = none ∧ admitThen s.cur wrap micro s.quantum start s = o))) ∨
    (∃ c, s.callers[s.cur]? = some c ∧ c.accepts = false ∧
      ((c.stack.head?.bind view = none ∧ o = .refused .inFlight) ∨
       ∃ f, c.stack.head?.bind view = some f ∧ burst s.cur wrap micro (s.quantum + 1) f s = o)) := by
  unfold conduct at h
  split at h
  · rename_i hc; exact .inl ⟨hc, h.symm⟩
  · rename_i c hc
    split at h
    · rename_i ha
      refine .inr (.inl ⟨c, hc, ha, ?_⟩)
      cases refusal with
      | some r => exact .inl ⟨r, rfl, h.symm⟩
      | none => exact .inr ⟨rfl, h⟩
    · rename_i ha
      refine .inr (.inr ⟨c, hc, by simpa using ha, ?_⟩)
      split at h
      · rename_i hv; exact .inl ⟨hv, h.symm⟩
      · rename_i f hv; exact .inr ⟨f, hv, h⟩

/-- An acceptance is the empty burst of the operation accepted, or an answer at once. -/
theorem admitThen_some {F : Type} (a : Nat) (wrap : F → Frame) (micro : Nat → F → State → Micro F) (n : Nat) (f : F)
    (s : State) : admitThen a wrap micro (n + 1) (some f) s = burst a wrap micro (n + 1) f (s.accept a (wrap f)) := rfl

theorem admitThen_zero {F : Type} (a : Nat) (wrap : F → Frame) (micro : Nat → F → State → Micro F) (start : Option F)
    (s : State) : admitThen a wrap micro 0 start s = .next (s.acceptOrAnswer a wrap start) := by cases start <;> rfl

theorem admitThen_none {F : Type} (a : Nat) (wrap : F → Frame) (micro : Nat → F → State → Micro F) (n : Nat)
    (s : State) : admitThen a wrap micro n none s = .next (s.answerAtOnce a .unsupported) := by cases n <;> rfl

end Sys2Proof.Machine
end

