-- ==== Sys2Proof/Laws/PerInstr.lean ====
section
/-! SUPPORT. Statements about every instruction as syntax, one lemma per constructor. -/

namespace Sys2Proof.Laws

/-- The descriptor of an operation has the operation's code in REQ0[3:0] (rules R91, R92). -/
def OpcodeField.Statement (i : Instr) : Prop := (encode i).op = i.opcode

/-- The low four bits of a word that ends in a four-bit code. -/
theorem OpcodeField.low_of_append (rest : BitVec 28) (op : BitVec 4) : (rest ++ op).extractLsb' 0 4 = op := by
  ext i hi
  have := BitVec.getLsbD_append (x := rest) (y := op) (i := i)
  simp only [hi, if_true] at this
  simpa [hi] using this

/-- The low four bits of a word that ends in a byte are that byte's. -/
theorem OpcodeField.low_of_byte (rest : BitVec 24) (b : Byte) : (rest ++ b).extractLsb' 0 4 = b.extractLsb' 0 4 := by
  ext i hi
  have h : i < 8 := by omega
  have := BitVec.getLsbD_append (x := rest) (y := b) (i := i)
  simp only [h, if_true] at this
  simpa [h] using this

theorem OpcodeField.enable : OpcodeField.Statement .enable := OpcodeField.low_of_append _ _
theorem OpcodeField.disable : OpcodeField.Statement .disable := OpcodeField.low_of_append _ _
theorem OpcodeField.enterLp : OpcodeField.Statement .enterLp := OpcodeField.low_of_append _ _
theorem OpcodeField.exitLp : OpcodeField.Statement .exitLp := OpcodeField.low_of_append _ _
theorem OpcodeField.doze : OpcodeField.Statement .doze := OpcodeField.low_of_append _ _
theorem OpcodeField.dozeSuspend : OpcodeField.Statement .dozeSuspend := OpcodeField.low_of_append _ _
theorem OpcodeField.write (ty d0 d1 : Byte) (len : Half) (buf : Option BufHandle) :
    OpcodeField.Statement (.write ty d0 d1 len buf) := OpcodeField.low_of_byte _ _
theorem OpcodeField.read (ty addr : Byte) (maxLen cap : Half) (buf : Option BufHandle) :
    OpcodeField.Statement (.read ty addr maxLen cap buf) := OpcodeField.low_of_byte _ _
theorem OpcodeField.reserved6 (rest : BitVec 28) (req1 : Word) : OpcodeField.Statement (.reserved6 rest req1) :=
  OpcodeField.low_of_append _ _
theorem OpcodeField.reserved7 (rest : BitVec 28) (req1 : Word) : OpcodeField.Statement (.reserved7 rest req1) :=
  OpcodeField.low_of_append _ _
theorem OpcodeField.reservedA (rest : BitVec 28) (req1 : Word) : OpcodeField.Statement (.reservedA rest req1) :=
  OpcodeField.low_of_append _ _
theorem OpcodeField.reservedB (rest : BitVec 28) (req1 : Word) : OpcodeField.Statement (.reservedB rest req1) :=
  OpcodeField.low_of_append _ _
theorem OpcodeField.reservedC (rest : BitVec 28) (req1 : Word) : OpcodeField.Statement (.reservedC rest req1) :=
  OpcodeField.low_of_append _ _
theorem OpcodeField.reservedD (rest : BitVec 28) (req1 : Word) : OpcodeField.Statement (.reservedD rest req1) :=
  OpcodeField.low_of_append _ _
theorem OpcodeField.reservedE (rest : BitVec 28) (req1 : Word) : OpcodeField.Statement (.reservedE rest req1) :=
  OpcodeField.low_of_append _ _
theorem OpcodeField.reservedF (rest : BitVec 28) (req1 : Word) : OpcodeField.Statement (.reservedF rest req1) :=
  OpcodeField.low_of_append _ _

end Sys2Proof.Laws
end

