-- ==== Sys2Proof/Tests/Slice0.lean ====
section
/-! SUPPORT. The model's own tests, on small states with the spec's default tables ("offered for test vectors only", rules R7,
R98, R99, R106): the WellFormed smoke, words written out from rules R91 and R111, single turns whose expected results are
worked out from the rules cited, and for every statement with hypotheses a state and operands that meet them. -/

namespace Sys2Proof.Tests

open Sys2Proof.Machine

/-! ## Small states -/

/-- No configuration in particular. -/
def noConfig : LinkConfig := ⟨0, 0, 0, 0, 0, [], [], 0, 0, 0, 0, [], []⟩

/-- One caller agent, at time 10, in a link state with the three power flags equal to `up`, about to take `q + 1` micro-steps. -/
def sys (link : LinkState) (up : Bool) (q : Nat) (c : Caller) : State where
  link := link
  lock := .free
  sigPh := ⟨false⟩
  sigRd := ⟨false⟩
  wd := ⟨false, 0⟩
  underrun := 0
  cfg := noConfig
  linkIndex := 0
  irqEnabled := up
  pdActive := up
  phyOn := up
  irqBusy := false
  now := 10
  hist := []
  fault := none
  callers := [c]
  irq := ⟨.idle, 0⟩
  wdt := ⟨false⟩
  mem := []
  par := Params.defaults
  turns := []
  turnDraws := 0
  answers := []
  answerDraws := 0
  cur := 0
  quantum := q

/-- That system with an `Idle` agent, the link on, the environment to answer `l`. -/
def on (l : List Nat) : State := { sys .on true 60 Caller.idle with answers := l }

/-- A buffer at address 100. -/
def buf (n : Nat) : Option BufHandle := some ⟨100, n⟩

/-- The next state of an outcome, if it is one. -/
def nextOf (o : Host.Outcome State Fault Refusal) : Option State :=
  match o with
  | .next s => some s
  | .fault _ | .refused _ => none

/-- The result last returned to agent 0 in the next state. -/
def resultOf (o : Host.Outcome State Fault Refusal) : Option Result := do (← (← nextOf o).callers[0]?).ret

/-- The history of the next state. -/
def eventsOf (o : Host.Outcome State Fault Refusal) : Option (List Event) := (nextOf o).map fun s => s.hist

/-- The refusal of an outcome, if it is one. -/
def refusalOf (o : Host.Outcome State Fault Refusal) : Option Refusal :=
  match o with
  | .refused r => some r
  | .next _ | .fault _ => none

/-! ## WellFormed: an ill-formed term for each check (rules R186, R219) -/

theorem test_wf_payload_too_long :
    (Instr.write 0x39 0 0 2049 (buf 2049)).wellFormed Params.defaults = false := by decide
theorem test_wf_payload_short : (Instr.write 0x39 0 0 5 (buf 4)).wellFormed Params.defaults = false := by decide
theorem test_wf_payload_missing : (Instr.write 0x39 0 0 1 none).wellFormed Params.defaults = false := by decide
theorem test_wf_out_short : (Instr.read 0x06 0 4 4 (buf 3)).wellFormed Params.defaults = false := by decide
theorem test_wf_payload_fits : (Instr.write 0x39 0 0 2048 (buf 2048)).wellFormed Params.defaults = true := by decide
theorem test_wf_short_form_ignores_len : (Instr.write 0x05 0 0 9 none).wellFormed Params.defaults = true := by decide
theorem test_wf_unrecognized_ignores_len :
    (Instr.write 0x00 0 0 9 none).wellFormed Params.defaults = true := by decide

/-- The three refusals of rules R186 and R219, by name. -/
theorem test_refused_by_name :
    refusalOf (exec (.write 0x39 0 0 2049 (buf 2049)) (on [])) = some .payloadTooLong ∧
    refusalOf (exec (.write 0x39 0 0 5 (buf 4)) (on [])) = some .payloadShort ∧
    refusalOf (exec (.read 0x06 0 4 4 (buf 3)) (on [])) = some .outShort := by decide

/-! ## Decoding: words written out from rules R91, R92, R93 and R111 -/

theorem test_decode_enable : decode ⟨0x00000000, 0, none⟩ = .ok .enable := by decide
theorem test_decode_disable : decode ⟨0x00000001, 0, none⟩ = .ok .disable := by decide
theorem test_decode_enterLp : decode ⟨0x00000002, 0, none⟩ = .ok .enterLp := by decide
theorem test_decode_exitLp : decode ⟨0x00000003, 0, none⟩ = .ok .exitLp := by decide
theorem test_decode_doze : decode ⟨0x00000004, 0, none⟩ = .ok .doze := by decide
theorem test_decode_dozeSuspend : decode ⟨0x00000005, 0, none⟩ = .ok .dozeSuspend := by decide
/-- R111: a short write of type 0x05 with data byte 0x29. -/
theorem test_decode_write_short : decode ⟨0x00290508, 0, none⟩ = .ok (.write 0x05 0x29 0x00 0 none) := by decide
/-- R111: a long write of type 0x39 with five bytes. -/
theorem test_decode_write_long :
    decode ⟨0x00003908, 5, buf 5⟩ = .ok (.write 0x39 0x00 0x00 5 (buf 5)) := by decide
/-- Four different fields, each from its own place (rule R91). -/
theorem test_decode_write_fields :
    decode ⟨0x44332208, 0x00005566, none⟩ = .ok (.write 0x22 0x33 0x44 0x5566 none) := by decide
/-- R111: a read of type 0x06 at address 0x04. -/
theorem test_decode_read :
    decode ⟨0x00040609, 0x00040003, buf 4⟩ = .ok (.read 0x06 0x04 3 4 (buf 4)) := by decide
theorem test_decode_reserved :
    decode ⟨0x00000006, 0, none⟩ = .ok (.reserved6 0 0) ∧ decode ⟨0x00000007, 0, none⟩ = .ok (.reserved7 0 0) ∧
    decode ⟨0x0000000A, 0, none⟩ = .ok (.reservedA 0 0) ∧ decode ⟨0x0000000B, 0, none⟩ = .ok (.reservedB 0 0) ∧
    decode ⟨0x0000000C, 0, none⟩ = .ok (.reservedC 0 0) ∧ decode ⟨0x0000000D, 0, none⟩ = .ok (.reservedD 0 0) ∧
    decode ⟨0x0000000E, 0, none⟩ = .ok (.reservedE 0 0) ∧ decode ⟨0x0000000F, 0, none⟩ = .ok (.reservedF 0 0) := by
  decide
/-- A field that must be zero, by its name (rule R93). -/
theorem test_decode_malformed :
    decode ⟨0x00000010, 0, none⟩ = .error .rsv0 ∧ decode ⟨0x00000101, 0, none⟩ = .error .typeField ∧
    decode ⟨0x00010002, 0, none⟩ = .error .d0Field ∧ decode ⟨0x80000003, 0, none⟩ = .error .d1Field ∧
    decode ⟨0x00000004, 1, none⟩ = .error .lenField ∧ decode ⟨0x00000005, 0x00010000, none⟩ = .error .capField ∧
    decode ⟨0x00290518, 0, none⟩ = .error .rsv0 ∧ decode ⟨0x00290508, 0x00010000, none⟩ = .error .capField ∧
    decode ⟨0x00040689, 0, none⟩ = .error .rsv0 ∧ decode ⟨0x01040609, 0, none⟩ = .error .d1Field := by decide
/-- The result words of rule R95: Timeout, a ProtocolError with its code, and five bytes read. -/
theorem test_result_words :
    Result.timeout.word = 0x00000002 ∧ (Result.protocolError (some ⟨7⟩)).word = 0x00000103 ∧
    (Result.okCount 5).word = 0x00050000 := by decide
/-- The parameters without the capability `HAS_DOZE`. -/
def noDoze : Params := { Params.defaults with hasDoze := false }

/-- An `Idle` agent with this request at its port, its turn next, these parameters (the link in INIT). -/
def requested (p : Params) (r : Request) : State :=
  { sys .init false 0 ⟨some r, none, []⟩ with par := p, turns := [.caller 0 9] }

/-- DOZE with a nonzero `TYPE`, and DOZE_SUSPEND with a nonzero `CAP`: refused with the capability, a reserved code without it,
and then answered like any other (rules R93, R298; I11). -/
theorem test_doze_word_by_capability :
    refusalOf (step (requested Params.defaults ⟨0x00000104, 0, none⟩)) = some (.malformed .typeField) ∧
    resultOf (step (requested noDoze ⟨0x00000104, 0, none⟩)) = some .unsupported ∧
    resultOf (step (requested noDoze ⟨0x00000005, 0x00010000, none⟩)) = some .unsupported ∧
    resultOf (step (requested noDoze ⟨0xFFFFFFF6, 0, none⟩)) = some .unsupported ∧
    refusalOf (step (requested noDoze ⟨0x00000103, 0, none⟩)) = some (.malformed .typeField) := by decide
/-- What the host asks of a table word: the row's operation, and the first step runs it (rule R93: `Unsupported`). -/
theorem test_table_word :
    decodeTableWord 32 0x00000008 = some (.write 0 0 0 0 none) ∧
    resultOf (step ((sys .init false 0 Caller.idle).withFetchWord 32 0x0000000F)) = some .unsupported := by decide

/-! ## Single turns (sections 2 to 5 of spec/95_test_vectors.md, and the rules cited) -/

/-- Matrix row INIT, ENABLE with the PLL stable: the handoff of rule R137. -/
theorem test_enable_handoff :
    (nextOf (exec .enable { sys .init false 60 Caller.idle with answers := [1] })).map (fun s => (s.link, s.hist)) =
      some (.on, [.act .clkDomainResume, .act .phyRouteCfg, .act .phyIsoRelease, .pllStable true, .act .linkStart,
        .act .irqLineEnable]) := by decide
/-- ENABLE found in DOZE writes the state alone and wakes the panel (rules R135, R143). -/
theorem test_enable_from_doze :
    (nextOf (exec .enable (sys .doze true 60 Caller.idle))).map (fun s => (s.link, s.hist)) =
      some (.on, [.panel .sleepOut]) := by decide
/-- DISABLE found in ON (rule R146). -/
theorem test_disable_from_on :
    (nextOf (exec .disable (on []))).map (fun s => (s.link, s.hist)) =
      some (.off, [.act .linkStop, .act .irqLineDisable, .act .phyPowerOff, .panel .powerOff, .act .clkDomainSuspend]) := by
  decide
/-- DISABLE found in ULPS is an OFF-class to OFF-class move (rule R145). -/
theorem test_disable_from_ulps :
    (nextOf (exec .disable (sys .ulps false 60 Caller.idle))).map (fun s => (s.link, s.hist)) =
      some (.off, [.panel .powerOff]) := by decide
/-- ENTER_LP whose retention entry fails still reaches ULPS, with one dump (rule R151). -/
theorem test_enterLp_retention_fails :
    (nextOf (exec .enterLp (on [1]))).map (fun s => (s.link, s.pdActive, s.hist)) =
      some (.ulps, false, [.act .irqLineDisable, .act .linkStop, .act (.enterRetention .fail), .dump .retentionFail,
        .act .phyPowerOff, .act .clkDomainSuspend]) := by decide
/-- ENTER_LP in OFF (the source's scenario, rule R152). -/
theorem test_enterLp_from_off :
    (nextOf (exec .enterLp (sys .off false 60 Caller.idle))).map (fun s => (s.link, s.hist)) = some (.off, []) ∧
    resultOf (exec .enterLp (sys .off false 60 Caller.idle)) = some .invalidState := by decide
/-- EXIT_LP ends with the link start after the retention exit (rule R155). -/
theorem test_exitLp :
    (nextOf (exec .exitLp { sys .ulps false 60 Caller.idle with answers := [0] })).map
        (fun s => (s.link, s.hist.drop 12)) =
      some (.on, [.act .exitRetention, .act .linkStart, .act .irqLineEnable]) := by decide
/-- DOZE without the capability (rule R93). -/
theorem test_doze_unsupported :
    resultOf (exec .doze { on [] with par := noDoze }) = some .unsupported := by decide
/-- DOZE_SUSPEND leaves the panel powered: no `power_off` (rule R161). -/
theorem test_dozeSuspend :
    (nextOf (exec .dozeSuspend (on []))).map (fun s => (s.link, s.hist)) =
      some (.dozeSuspend, [.act .linkStop, .act .irqLineDisable, .act .phyPowerOff, .act .clkDomainSuspend]) := by decide
/-- A long write of five bytes: two payload words, low byte first and zero filled, then the header with the length (rules
R102, R178). -/
theorem test_write_long_words :
    (nextOf (exec (.write 0x39 0 0 5 (buf 5))
        { on [1] with mem := [(100, 0x2C), (101, 0x11), (102, 0x22), (103, 0x33), (104, 0x44)] })).map
        (fun s => s.hist.drop 2) =
      some [.writePayload 0x3322112C, .writePayload 0x00000044, .writeHeader 0x39 5 0 false, .fifoWritable true,
        .unblockLowPowerExit] := by decide
/-- A write that must be acknowledged blocks with the lock held and the watchdog armed `WR_TIMEOUT` ticks ahead (rules
R174, R182). -/
theorem test_write_waits :
    (nextOf (exec (.write 0x05 0x29 0 0 none) (on []))).map (fun s => (s.lock, s.wd)) =
      some (.held 0, ⟨true, 60⟩) := by decide
/-- WRITE in DOZE (rule R172). -/
theorem test_write_in_doze :
    resultOf (exec (.write 0x05 0x29 0 0 none) (sys .doze true 60 Caller.idle)) = some .notReady := by decide
/-- READ in OFF (rule R202). -/
theorem test_read_in_off :
    resultOf (exec (.read 0x06 4 4 4 (buf 4)) (sys .off false 60 Caller.idle)) = some .notReady := by decide

/-! ## Operations in flight -/

/-- A WRITE in its wait since time 5. -/
def waitingWrite : WriteFrame := { WriteFrame.start 0x05 0x29 0 0 none with ctl := ⟨.w9, .ok⟩, t0 := 5 }

/-- A READ at a label, its buffer of four bytes at address 100. -/
def reading (l : RLabel) (t0 : Nat) : ReadFrame :=
  { ReadFrame.start 0x06 0x04 4 4 (buf 4) with ctl := ⟨l, .ok⟩, t0 := t0 }

/-- An agent with one operation in flight. -/
def busy (f : Frame) : Caller := ⟨none, none, [f]⟩

/-- The link on, agent 0 running `f`; the lock its own or free. -/
def running (f : Frame) (holds : Bool) (l : List Nat) : State :=
  { sys .on true 200 (busy f) with lock := if holds then .held 0 else .free, answers := l }

/-- READ of a short response of one byte: the byte is stored at `out[0]` and counted (rules R211, R213, R216). -/
theorem test_read_short_response :
    (nextOf (exec (.read 0x06 0x04 4 4 (buf 4))
        { running (.read (reading .r6 5)) false [0x00009C21, 1] with sigRd := ⟨true⟩ })).map (fun s => s.mem) =
      some [(100, 0x9C)] ∧
    resultOf (exec (.read 0x06 0x04 4 4 (buf 4))
        { running (.read (reading .r6 5)) false [0x00009C21, 1] with sigRd := ⟨true⟩ }) = some (.okCount 1) := by decide
/-- A handler run that latches an under-run at the top of the counter wraps it (rule R268). -/
theorem test_underrun_wraps :
    (nextOf (repeatTurn irqTurn 11 { on [16] with underrun := 0xFFFFFFFF })).map (fun s => s.underrun) = some 0 := by
  decide
/-- The watchdog at its deadline with the FIFO not empty (rule R244). -/
theorem test_watchdog_dumps :
    (nextOf (wdtTurn { on [0] with wd := ⟨true, 10⟩ })).map (fun s => (s.wd, s.hist)) =
      some (⟨false, 10⟩, [.headerFifoEmpty false, .dump .watchdogStuck]) := by decide

/-! ## For every statement with hypotheses, a state and operands that meet them: one theorem per statement, one conjunct per
clause, at the values where clauses meet -/

theorem witness_EncodeOfDecode :
    decode ⟨0x00290508, 0, buf 1⟩ = .ok (.write 0x05 0x29 0 0 (buf 1)) ∧
    decode ⟨0xFFFFFFF6, 0xFFFFFFFF, none⟩ = .ok (.reserved6 0xFFFFFFF 0xFFFFFFFF) := by decide

/-- Each list of codes at its end and just past it: 0x3 and 0x4, 0x5 and 0x6, 0x8 and 0x9, with and without the capability. -/
theorem witness_MalformedExactly :
    decodeRequest Params.defaults ⟨0x00000103, 0, none⟩ = .error .typeField ∧
    decodeRequest Params.defaults ⟨0x00000105, 0, none⟩ = .error .typeField ∧
    decodeRequest noDoze ⟨0x00000103, 0, none⟩ = .error .typeField ∧
    decodeRequest noDoze ⟨0x00000104, 0, none⟩ = .ok .doze ∧ decodeRequest noDoze ⟨0x00000105, 0, none⟩ = .ok .dozeSuspend ∧
    decodeRequest noDoze ⟨0x00000106, 0, none⟩ = .ok (.reserved6 0x10 0) ∧
    decodeRequest noDoze ⟨0x01000009, 0, none⟩ = .error .d1Field ∧
    decodeRequest noDoze ⟨0x01000008, 0x0000FFFF, none⟩ = .ok (.write 0 0 1 0xFFFF none) ∧
    decode ⟨0x00000004, 0, none⟩ = .ok .doze := by decide

/-- The last byte of a payload of five, and the first beyond it, in the same word. -/
theorem witness_PayloadWordsHoldThePayload :
    let s := { on [] with mem := [(104, 0x44), (105, 0x55)] }
    byteOf (payloadWord s (buf 5) 5 1) 0 = 0x44 ∧ byteOf (payloadWord s (buf 5) 5 1) 1 = 0 ∧
    s.memRead (buf 5) 4 = 0x44 ∧ wordsFor 5 = 2 := by decide

theorem witness_StepRunsTheDecodedOperation :
    (let c : Caller := ⟨some ⟨0, 0, none⟩, none, []⟩
     let s : State := { sys .on true 0 c with turns := [.caller 0 3] }
     s.fault = none ∧ s.turns = .caller 0 3 :: [] ∧ s.callers[0]? = some c ∧ c.accepts = true ∧
       c.port = some ⟨0, 0, none⟩ ∧ decodeRequest s.par ⟨0, 0, none⟩ = .ok .enable) ∧
    (let c := busy (.write waitingWrite)
     let s : State := { sys .on true 0 c with turns := [.caller 0 3] }
     s.callers[0]? = some c ∧ c.accepts = false ∧ c.stack = .write waitingWrite :: []) ∧
    (let c : Caller := ⟨some ⟨0x10, 0, none⟩, none, []⟩
     let s : State := { sys .on true 0 c with turns := [.caller 0 3] }
     s.callers[0]? = some c ∧ c.accepts = true ∧ c.port = some ⟨0x10, 0, none⟩ ∧
       decodeRequest s.par ⟨0x10, 0, none⟩ = .error .rsv0) ∧
    (let s : State := { sys .on true 0 Caller.idle with turns := [.caller 0 3] }
     s.callers[0]? = some Caller.idle ∧ Caller.idle.stack = [] ∧ Caller.idle.port = none) ∧
    (on []).callers[1]? = none := by decide

theorem witness_StepRunsTheOtherAgents :
    (∀ l, { on [] with turns := l }.fault = none) ∧ (on []).turns = [] ∧
    { on [] with turns := [.irq] }.turns = .irq :: [] ∧ { on [] with turns := [.wdt] }.turns = .wdt :: [] ∧
    { on [] with turns := [.tick] }.turns = .tick :: [] ∧
    { on [] with turns := [.request 0 ⟨0, 0, none⟩] }.turns = .request 0 ⟨0, 0, none⟩ :: [] ∧
    { on [] with turns := [.hostStore 7 1] }.turns = .hostStore 7 1 :: [] :=
  ⟨fun _ => rfl, rfl, rfl, rfl, rfl, rfl, rfl⟩

/-- At rest while `Idle` and inside a panel callback; not at rest in between; and a port already taken. -/
theorem witness_SecondRequestRefused :
    (Caller.idle.port = none ∧ Caller.idle.atRest = true) ∧
    (busy (.enable { BuFrame.start with ctl := ⟨.bu12, .ok⟩, cb := true })).atRest = true ∧
    (busy (.write waitingWrite)).atRest = false ∧ (⟨some ⟨0, 0, none⟩, none, []⟩ : Caller).port.isSome = true ∧
    (on []).callers[0]? = some Caller.idle := by decide

/-- Payload lengths at and just over the capacity, and a second operation while a WRITE is in flight. -/
theorem witness_RefusedExactlyWithoutMeaning :
    (on []).callers[(on []).cur]? = some Caller.idle ∧ Caller.idle.accepts = true ∧
    (Instr.write 0x39 0 0 2048 (buf 2048)).wellFormed (on []).par = true ∧
    (Instr.write 0x39 0 0 2049 (buf 2049)).wellFormed (on []).par = false ∧
    (busy (.write waitingWrite)).accepts = false ∧ (Frame.write waitingWrite).op ≠ Instr.enable.opcode := by decide

/-! ### Invariants -/

/-- The invariant of a system of one agent, clause by clause. -/
theorem inv_of_one {s : State} {c : Caller} (hc : s.callers = [c]) (ht : ∀ fr ∈ c.stack, fr.targetSet)
    (hl : c.stack.countP Frame.locked = if s.lock = .held 0 then 1 else 0) (ho : ∀ a, s.lock = .held a → a = 0)
    (hd : s.duringLockHolds) (hh : s.handlerAccounted) : s.Inv := by
  refine ⟨?_, ⟨?_, ?_⟩, hd, hh⟩
  · intro d hmem
    rw [hc, List.mem_singleton] at hmem
    exact hmem ▸ ht
  · intro a d hd'
    rw [hc] at hd'
    cases a with
    | zero => cases hd'; exact hl
    | succ a => simp at hd'
  · intro a h
    simp [hc, ho a h]

/-- The invariant holds of the system at rest in every state whose flags say whether the link is up. -/
theorem inv_of_rest (link : LinkState) (q : Nat) (port : Option Request) :
    (sys link link.onClass q ⟨port, none, []⟩).Inv := by
  refine inv_of_one (c := ⟨port, none, []⟩) rfl (by simp) (by simp [sys]) (by simp [sys]) ?_ (by simp [State.handlerAccounted, sys])
  exact ⟨rfl, rfl, rfl, by simp [sys]⟩

/-- The invariant holds while a WRITE waits under the lock. -/
theorem inv_of_waiting : (running (.write waitingWrite) true []).Inv := by
  refine inv_of_one (c := busy (.write waitingWrite)) rfl (by simp [busy, Frame.targetSet]) (by decide)
    (by simp [running]) ?_ (by simp [State.handlerAccounted, running, sys])
  refine ⟨busy (.write waitingWrite), .write waitingWrite, rfl, by simp [busy], ?_⟩
  exact ⟨⟨rfl, rfl, rfl, by simp [running, sys]⟩, rfl⟩

/-- An ENABLE found in DOZE, about to write the state. -/
def aboutToWrite : BuFrame := { BuFrame.start with ctl := ⟨.bu4b, .ok⟩, target := .on, prev := .doze }

/-- That system, its agent's turn next. -/
def writing : State :=
  { sys .doze true 0 (busy (.enable aboutToWrite)) with lock := .held 0, turns := [.caller 0 0] }

/-- The invariant holds there. -/
theorem inv_of_writing : writing.Inv := by
  refine inv_of_one (c := busy (.enable aboutToWrite)) rfl (by simp [busy, Frame.targetSet, aboutToWrite]) (by decide)
    (by simp [writing]) ?_ (by simp [State.handlerAccounted, writing, sys])
  exact ⟨busy (.enable aboutToWrite), .enable aboutToWrite, rfl, by simp [busy], rfl, rfl, rfl, rfl⟩

/-- A step with the lock free (time passes) and a step with it held (the state is written). -/
theorem witness_StepKeepsTheInvariant :
    (∃ s t : State, s.Inv ∧ step s = .next t ∧ t.lock = .free ∧ t.irqEnabled = true) ∧
    (∃ s t : State, s.Inv ∧ step s = .next t ∧ t.lock = .held 0) :=
  ⟨⟨{ sys .on true 0 Caller.idle with turns := [.tick] }, _, inv_of_rest .on 0 none, rfl, rfl, rfl⟩,
    ⟨writing, _, inv_of_writing, rfl, rfl⟩⟩

/-- A READ requested in INIT, before any power: past its gate and at its first register access. -/
theorem witness_FaultsOnlyInRead :
    let c : Caller := ⟨some ⟨0x00040609, 0x00040003, buf 4⟩, none, []⟩
    let s : State := { sys .init false 0 c with turns := [.caller 0 9] }
    s.Inv ∧ s.fault = none ∧ step s = .fault .noPower :=
  ⟨inv_of_rest .init 0 _, rfl, rfl⟩

theorem witness_LockedSectionsNeverOverlap :
    (running (.write waitingWrite) true []).Inv ∧
    (running (.write waitingWrite) true []).callers[0]? = some (busy (.write waitingWrite)) ∧
    Frame.write waitingWrite ∈ (busy (.write waitingWrite)).stack ∧ (Frame.write waitingWrite).locked = true :=
  ⟨inv_of_waiting, rfl, by simp [busy], rfl⟩

/-- The host stores a byte: memory changes and stays canonical. -/
theorem witness_StepKeepsMemoryCanonical :
    let s : State := { on [] with mem := [(3, 1)], turns := [.hostStore 2 9] }
    Memory.wf s.mem = true ∧ (nextOf (step s)).map (fun t => t.mem) = some [(2, 9), (3, 1)] := by decide

/-- A step that writes the state, which the configuration survives. -/
theorem witness_ConfigurationNeverWritten : ∃ t, step writing = .next t ∧ t.link = .on := ⟨_, rfl, rfl⟩

theorem witness_HistoryOnlyGrows :
    ∃ t, step { on [] with wd := ⟨true, 10⟩, answers := [0], turns := [.wdt] } = .next t ∧
      t.hist = [] ++ [.headerFifoEmpty false, .dump .watchdogStuck] := ⟨_, rfl, rfl⟩

/-- One micro-step of a WRITE that touches the registers, and a turn that is no caller agent's. -/
theorem witness_RegistersTouchedOnlyWithPower :
    let f : WriteFrame := { WriteFrame.start 0x05 0x29 0 0 none with ctl := ⟨.w4, .ok⟩ }
    let s : State := { running (.write f) true [] with turns := [.caller 0 0] }
    (∀ a more, s.nextTurn = .caller a more → more = 0) ∧
    ((nextOf (step s)).map fun t => t.hist) = some [.clearInterrupt 1] ∧
    Event.touchesRegisters (.clearInterrupt 1) = true := by
  refine ⟨?_, by decide, rfl⟩
  intro a more h
  cases h
  rfl

theorem witness_LinkStateWrittenOnlyUnderLock :
    writing.Inv ∧ (∀ a more, writing.nextTurn = .caller a more → more = 0) ∧
    ∃ t, step writing = .next t ∧ t.link ≠ writing.link := by
  refine ⟨inv_of_writing, ?_, _, rfl, by decide⟩
  intro a more h
  cases h
  rfl

theorem witness_InitIsNeverReentered :
    writing.targetsSet ∧ writing.link ≠ .init ∧ ∃ t, step writing = .next t ∧ t.link = .on :=
  ⟨inv_of_writing.1, by decide, _, rfl, rfl⟩

/-- Time passes in one turn; the counter moves in another. -/
theorem witness_TimeAndUnderrunCounter :
    ((nextOf (step { on [] with turns := [.tick] })).map fun t => t.now) = some 11 ∧
    ((nextOf (step { on [] with irq := ⟨.h7, 16⟩, irqBusy := true, turns := [.irq] })).map fun t => t.underrun) =
      some 1 := by decide

/-- Agent 0 holds the lock and the interrupt agent moves. -/
theorem witness_OnlyTheHolderReleasesTheLock :
    let s : State := { running (.write waitingWrite) true [] with turns := [.irq] }
    s.lock = .held 0 ∧ (∀ more, s.nextTurn ≠ .caller 0 more) ∧ ∃ t, step s = .next t ∧ t.irqBusy = true :=
  ⟨rfl, fun _ => by simp [State.nextTurn], ⟨_, rfl, rfl⟩⟩

/-! ### Frames and blocking -/

theorem witness_EveryOperationFrame : ∃ t, exec .enable (on []) = .next t ∧ t.link = .on := ⟨_, rfl, rfl⟩

theorem witness_TransitionFrame :
    isTransition .disable = true ∧ ∃ t, exec .disable (on []) = .next t ∧ t.link = .off := ⟨rfl, _, rfl, rfl⟩

theorem witness_WriteFrameRule : ∃ t, exec (.write 0x05 0x29 0 0 none) (on []) = .next t ∧ t.lock = .held 0 :=
  ⟨_, rfl, rfl⟩

/-- A READ that stores at the first address of its buffer, and the first address outside it. -/
theorem witness_ReadFrameRule :
    (∃ t, exec (.read 0x06 0x04 4 4 (buf 4)) (running (.read { reading .r10s 5 with w := 0x00009C21 }) true [1]) =
      .next t ∧ t.mem = [(100, 0x9C)]) ∧
    ∀ i, i < (4 : Half).toNat → 104 ≠ bufAddr (buf 4) i := ⟨⟨_, rfl, rfl⟩, by decide⟩

/-- One blocked micro-step for each of the ways to block; both waits one tick before their time. -/
theorem witness_OnlyLockWaitAndLineDisableBlock :
    let held : State := { on [] with lock := .held 1 }
    let served : State := { on [] with irqBusy := true }
    bringUp .on 0 { BuFrame.start with ctl := ⟨.bu1, .ok⟩ } held = .blocked ∧
    tearDown .off 0 { TdFrame.start with ctl := ⟨.td1, .ok⟩ } held = .blocked ∧
    tearDown .off 0 { TdFrame.start with ctl := ⟨.td7, .ok⟩ } served = .blocked ∧
    enterLpStep 0 ElFrame.start held = .blocked ∧
    enterLpStep 0 { ElFrame.start with ctl := ⟨.el5, .ok⟩ } served = .blocked ∧
    exitLpStep 0 XlFrame.start held = .blocked ∧
    writeStep 0 { waitingWrite with ctl := ⟨.w1, .ok⟩ } held = .blocked ∧
    writeStep 0 waitingWrite { on [] with now := 54 } = .blocked ∧
    readStep 0 (reading .r7 5) held = .blocked ∧
    readStep 0 (reading .r6 5) { on [] with now := 104 } = .blocked ∧
    readStep 0 { reading .r5 5 with sub := some waitingWrite } (on []) = .blocked ∧
    readStep 1 (reading .r1 5) { held with link := .off } = .blocked ∧
    readStep 1 (reading .r3 5) { held with pdActive := false } = .blocked ∧
    irqStep ⟨.idle, 0⟩ served = .blocked :=
  ⟨rfl, rfl, rfl, rfl, rfl, rfl, rfl, rfl, rfl, rfl, rfl, rfl, rfl, rfl⟩

/-! ### Transitions -/

/-- The hypotheses that every transition statement has, at the smallest turn that carries it through. -/
theorem ready (link : LinkState) (up : Bool) :
    (sys link up 30 Caller.idle).idleAs Caller.idle ∧ (sys link up 30 Caller.idle).lock = .free ∧
      30 ≤ (sys link up 30 Caller.idle).quantum := ⟨⟨rfl, rfl⟩, rfl, Nat.le_refl 30⟩

theorem witness_BringUpAtTargetIsNoOp :
    ((sys .on true 30 Caller.idle).idleAs Caller.idle ∧ (sys .on true 30 Caller.idle).link = .on) ∧
    ((sys .doze true 30 Caller.idle).idleAs Caller.idle ∧ (sys .doze true 30 Caller.idle).link = .doze ∧
      (sys .doze true 30 Caller.idle).par.hasDoze = true) :=
  ⟨⟨(ready _ _).1, rfl⟩, (ready _ _).1, rfl, rfl⟩

/-- Every state found. -/
theorem witness_BringUpCompletes (link : LinkState) :
    let s := sys link link.onClass 30 Caller.idle
    s.idleAs Caller.idle ∧ s.lock = .free ∧ 30 ≤ s.quantum ∧ s.link = link :=
  ⟨(ready _ _).1, (ready _ _).2.1, (ready _ _).2.2, rfl⟩

/-- Every state found. -/
theorem witness_TearDownCompletes (link : LinkState) :
    let s := sys link link.onClass 30 Caller.idle
    s.idleAs Caller.idle ∧ s.lock = .free ∧ s.irqBusy = false ∧ 30 ≤ s.quantum ∧ s.link = link :=
  ⟨(ready _ _).1, (ready _ _).2.1, rfl, (ready _ _).2.2, rfl⟩

theorem witness_LowPowerCompletes :
    (let s := sys .on true 30 Caller.idle
     s.idleAs Caller.idle ∧ s.lock = .free ∧ 30 ≤ s.quantum ∧ s.link = .on ∧ s.pdActive = true ∧ s.irqBusy = false) ∧
    (let s := sys .ulps false 30 Caller.idle
     s.idleAs Caller.idle ∧ s.lock = .free ∧ 30 ≤ s.quantum ∧ s.link = .ulps) :=
  ⟨⟨(ready _ _).1, rfl, (ready _ _).2.2, rfl, rfl, rfl⟩, (ready _ _).1, rfl, (ready _ _).2.2, rfl⟩

/-- Each clause at the other's state. -/
theorem witness_LowPowerFromWrongState :
    (let s := sys .ulps false 30 Caller.idle
     s.idleAs Caller.idle ∧ s.lock = .free ∧ 30 ≤ s.quantum ∧ s.link ≠ .on) ∧
    (let s := sys .on true 30 Caller.idle
     s.idleAs Caller.idle ∧ s.lock = .free ∧ 30 ≤ s.quantum ∧ s.link ≠ .ulps) :=
  ⟨⟨(ready _ _).1, rfl, (ready _ _).2.2, by decide⟩, (ready _ _).1, rfl, (ready _ _).2.2, by decide⟩

/-- Every state found; the matrix cells that fail and those that do not. -/
theorem witness_TransitionMatrix (link : LinkState) :
    (let s := sys link link.onClass 30 Caller.idle
     isTransition .enterLp = true ∧ s.idleAs Caller.idle ∧ s.lock = .free ∧ s.irqBusy = false ∧ s.par.hasDoze = true ∧
       (s.link = .on → s.pdActive = true) ∧ 30 ≤ s.quantum) ∧
    linkMatrix .enterLp .on = some .ulps ∧ linkMatrix .enterLp .doze = none := by
  refine ⟨⟨rfl, (ready _ _).1, rfl, rfl, rfl, ?_, (ready _ _).2.2⟩, rfl, rfl⟩
  intro h
  cases h
  rfl

theorem witness_TransitionWaitsForTheLock :
    let s : State := { sys .on true 3 Caller.idle with lock := .held 0 }
    isTransition .exitLp = true ∧ s.idleAs Caller.idle ∧ s.lock = .held 0 ∧ s.par.hasDoze = true ∧ 3 ≤ s.quantum :=
  ⟨rfl, ⟨rfl, rfl⟩, rfl, rfl, by decide⟩

/-- As an operation; and from the words of each edge of the reserved codes, 0x5 without the capability among them. -/
theorem witness_ReservedCodesAnswerUnsupported :
    (isReserved (.reservedC 5 6) = true ∧ (on []).callers[(on []).cur]? = some Caller.idle ∧
      Caller.idle.accepts = true) ∧
    (let r : Request := ⟨0xFFFFFFF5, 7, none⟩
     let c : Caller := ⟨some r, none, []⟩
     let s := requested noDoze r
     s.fault = none ∧ s.turns = .caller 0 9 :: [] ∧ s.callers[0]? = some c ∧ c.accepts = true ∧ c.port = some r ∧
       isReservedCode s.par r.op = true) ∧
    isReservedCode noDoze 0x3 = false ∧ isReservedCode noDoze 0x4 = true ∧ isReservedCode Params.defaults 0x5 = false ∧
    isReservedCode Params.defaults 0x6 = true ∧ isReservedCode Params.defaults 0x9 = false ∧
    isReservedCode Params.defaults 0xF = true := by decide

/-! ### WRITE -/

theorem witness_WriteOutsideOnIsNotReady :
    let s := sys .doze true 30 Caller.idle
    s.idleAs Caller.idle ∧ (Instr.write 0x05 0x29 0 0 none).wellFormed s.par = true ∧ s.lock = .free ∧ s.link ≠ .on ∧
      30 ≤ s.quantum := ⟨(ready _ _).1, by decide, rfl, by decide, (ready _ _).2.2⟩

theorem witness_WriteOfUnrecognizedType :
    let s := sys .on true 30 Caller.idle
    s.idleAs Caller.idle ∧ s.lock = .free ∧ s.link = .on ∧ s.pdActive = true ∧ s.par.classify 0x00 = .unrecognized ∧
      30 ≤ s.quantum := ⟨(ready _ _).1, rfl, rfl, rfl, by decide, (ready _ _).2.2⟩

/-- The largest payload, 512 words, with just enough micro-steps. -/
theorem witness_WriteWithoutWaitCompletes :
    let s : State := { sys .on true 542 Caller.idle with answers := [1] }
    s.idleAs Caller.idle ∧ (Instr.write 0x39 0 0 2048 (buf 2048)).wellFormed s.par = true ∧ s.lock = .free ∧
      s.link = .on ∧ s.pdActive = true ∧ s.par.classify 0x39 ≠ .unrecognized ∧
      waitDecided s 0x39 0 2048 (buf 2048) = false ∧ asBool s.answer = true ∧
      30 + wordsFor (2048 : Half).toNat ≤ s.quantum :=
  ⟨⟨rfl, rfl⟩, by decide, rfl, rfl, rfl, by decide, by decide, by decide, by decide⟩

/-- The class decides, the command byte decides, and the FIFO decides. -/
theorem witness_WriteThatMustWaitBlocks :
    let s := on [0]
    s.idleAs Caller.idle ∧ s.lock = .free ∧ s.link = .on ∧ s.pdActive = true ∧
    ((Instr.write 0x06 0 0 0 none).wellFormed s.par = true ∧ s.par.classify 0x06 ≠ .unrecognized ∧
      30 + wordsFor (0 : Half).toNat ≤ s.quantum ∧ waitDecided s 0x06 0 0 none = true) ∧
    waitDecided s 0x05 0x29 0 none = true ∧ waitDecided s 0x05 0x2C 0 none = false ∧ asBool s.answer = false :=
  ⟨⟨rfl, rfl⟩, rfl, rfl, rfl, by decide, by decide, by decide, by decide⟩

/-- A WRITE in its wait since tick 5, at time `now`, its signal fired or not, the environment to answer `l`. -/
def inWait (now : Nat) (fired : Bool) (l : List Nat) : State :=
  { running (.write waitingWrite) true l with now := now, sigPh := ⟨fired⟩ }

/-- That agent goes on with its WRITE. -/
theorem inWait_runs (now : Nat) (fired : Bool) (l : List Nat) :
    (inWait now fired l).runs (busy (.write waitingWrite)) (.write waitingWrite) [] := ⟨rfl, rfl, rfl⟩

/-- A WRITE whose wait has ended with `TimedOut`. -/
def timedOutWrite : WriteFrame := { waitingWrite with ctl := ⟨.w10, .ok⟩, wres := .timedOut }

/-- A READ in the wait of a request packet. -/
def requesting (l : RLabel) : ReadFrame := { reading l 5 with sub := some waitingWrite }

/-- The last tick before the timeout. -/
theorem witness_WriteCompletesOnSignal :
    let s := inWait 54 true []
    s.runs (busy (.write waitingWrite)) (.write waitingWrite) [] ∧ waitingWrite.ctl.label = .w9 ∧ s.lock = .held s.cur ∧
      s.sigPh.done = true ∧ s.now < waitingWrite.t0 + s.par.wrTimeout.val ∧ 5 ≤ s.quantum :=
  ⟨inWait_runs _ _ _, rfl, rfl, rfl, by decide, by decide⟩

/-- The tick of the timeout; and after it, taken though the signal had fired. -/
theorem witness_WriteTimeoutWithEmptyFifo :
    (let s := inWait 55 false [1]
     s.runs (busy (.write waitingWrite)) (.write waitingWrite) [] ∧ waitingWrite.ctl.label = .w9 ∧
       s.lock = .held s.cur ∧ s.pdActive = true ∧ s.sigPh.done = false ∧
       waitingWrite.t0 + s.par.wrTimeout.val ≤ s.now ∧ asBool s.answer = true ∧ 10 ≤ s.quantum) ∧
    (let s : State := { running (.write timedOutWrite) true [1] with sigPh := ⟨true⟩ }
     s.runs (busy (.write timedOutWrite)) (.write timedOutWrite) [] ∧ timedOutWrite.ctl.label = .w10 ∧
       s.lock = .held s.cur ∧ s.pdActive = true ∧ asBool s.answer = true ∧ 10 ≤ s.quantum) :=
  ⟨⟨inWait_runs _ _ _, rfl, rfl, rfl, rfl, by decide, by decide, by decide⟩, ⟨rfl, rfl, rfl⟩, rfl, rfl, rfl, by decide,
    by decide⟩

/-- The tick of the timeout; and after it, taken though the signal had fired. -/
theorem witness_WriteGenuineTimeout :
    (let s := inWait 55 false [0]
     s.runs (busy (.write waitingWrite)) (.write waitingWrite) [] ∧ waitingWrite.ctl.label = .w9 ∧
       s.lock = .held s.cur ∧ s.pdActive = true ∧ s.sigPh.done = false ∧
       waitingWrite.t0 + s.par.wrTimeout.val ≤ s.now ∧ asBool s.answer = false ∧ 10 ≤ s.quantum) ∧
    (let s : State := { running (.write timedOutWrite) true [0] with sigPh := ⟨true⟩ }
     s.runs (busy (.write timedOutWrite)) (.write timedOutWrite) [] ∧ timedOutWrite.ctl.label = .w10 ∧
       s.lock = .held s.cur ∧ s.pdActive = true ∧ asBool s.answer = false ∧ 10 ≤ s.quantum) :=
  ⟨⟨inWait_runs _ _ _, rfl, rfl, rfl, rfl, by decide, by decide, by decide⟩, ⟨rfl, rfl, rfl⟩, rfl, rfl, rfl, by decide,
    by decide⟩

/-- The last tick of each wait. -/
theorem witness_WaitDoesNotEndEarly :
    (let s := inWait 54 false []
     s.runs (busy (.write waitingWrite)) (.write waitingWrite) [] ∧ waitingWrite.ctl.label = .w9 ∧
       s.sigPh.done = false ∧ s.now < waitingWrite.t0 + s.par.wrTimeout.val) ∧
    (let s : State := { running (.read (reading .r6 5)) false [] with now := 104 }
     s.runs (busy (.read (reading .r6 5))) (.read (reading .r6 5)) [] ∧ (reading .r6 5).ctl.label = .r6 ∧
       s.sigRd.done = false ∧ s.now < (reading .r6 5).t0 + s.par.rdTimeout.val) ∧
    ∀ l, (let s : State := { running (.read (requesting l)) true [] with now := 54 }
      s.runs (busy (.read (requesting l))) (.read (requesting l)) [] ∧ (requesting l).ctl.label = l ∧
        (requesting l).sub = some waitingWrite ∧ waitingWrite.ctl.label = .w9 ∧ s.sigPh.done = false ∧
        s.now < waitingWrite.t0 + s.par.wrTimeout.val) :=
  ⟨⟨inWait_runs _ _ _, rfl, rfl, by decide⟩, ⟨⟨rfl, rfl, rfl⟩, rfl, rfl, by decide⟩,
    fun _ => ⟨⟨rfl, rfl, rfl⟩, rfl, rfl, rfl, rfl, Nat.lt_succ_self 54⟩⟩

/-- The tick of each timeout, with the signal fired. -/
theorem witness_WaitTieTakesEitherOutcome :
    (let s : State := { inWait 55 true [] with quantum := 0 }
     s.quantum = 0 ∧ s.runs (busy (.write waitingWrite)) (.write waitingWrite) [] ∧ waitingWrite.ctl.label = .w9 ∧
       s.sigPh.done = true ∧ waitingWrite.t0 + s.par.wrTimeout.val ≤ s.now) ∧
    (∀ l, (let s : State := { running (.read (requesting l)) true [] with now := 55, sigPh := ⟨true⟩, quantum := 0 }
      s.quantum = 0 ∧ s.runs (busy (.read (requesting l))) (.read (requesting l)) [] ∧ (requesting l).ctl.label = l ∧
        (requesting l).sub = some waitingWrite ∧ s.sigPh.done = true ∧
        waitingWrite.t0 + s.par.wrTimeout.val ≤ s.now)) ∧
    (let s : State := { running (.read (reading .r6 5)) false [] with now := 105, sigRd := ⟨true⟩, quantum := 0 }
     s.quantum = 0 ∧ s.runs (busy (.read (reading .r6 5))) (.read (reading .r6 5)) [] ∧
       (reading .r6 5).ctl.label = .r6 ∧ s.sigRd.done = true ∧ (reading .r6 5).t0 + s.par.rdTimeout.val ≤ s.now) :=
  ⟨⟨rfl, ⟨rfl, rfl, rfl⟩, rfl, rfl, by decide⟩,
    fun _ => ⟨rfl, ⟨rfl, rfl, rfl⟩, rfl, rfl, rfl, Nat.le_refl 55⟩,
    rfl, ⟨rfl, rfl, rfl⟩, rfl, rfl, by decide⟩

/-! ### READ -/

/-- An agent inside the panel callback `power_off` of its DISABLE (rule R301), a request at its port. -/
def poweringOff : Caller :=
  ⟨some ⟨0x00040609, 0x00040003, buf 4⟩, none,
    [.disable { TdFrame.start with ctl := ⟨.td10, .ok⟩, target := .off, prev := .on, cb := true }]⟩

/-- A READ and a WRITE whose operands have a meaning. -/
theorem test_wf_commands :
    (Instr.write 0x05 0x29 0 0 none).wellFormed Params.defaults = true ∧
    (Instr.read 0x06 0x04 3 4 (buf 4)).wellFormed Params.defaults = true := by decide

/-- That agent, under its own lock, in any link state. -/
def inPowerOff (link : LinkState) (up : Bool) : State := { sys link up 30 poweringOff with lock := .held 0 }

/-- READ and WRITE from a callback under the lock: READ waits at its own place in OFF, in ULPS and in ON, WRITE at `W.1`; neither
returns (rules R301, R336; I2). -/
theorem test_command_under_own_lock :
    let read := Instr.read 0x06 0x04 3 4 (buf 4)
    let write := Instr.write 0x05 0x29 0 0 none
    eventsOf (exec read (inPowerOff .off false)) = some [.blockLowPowerExit] ∧
    eventsOf (exec read (inPowerOff .ulps false)) = some [.blockLowPowerExit] ∧
    eventsOf (exec read (inPowerOff .on true)) =
      some [.blockLowPowerExit, .clearInterrupt irqRxDataDone, .blockLowPowerExit] ∧
    eventsOf (exec write (inPowerOff .off false)) = some [.blockLowPowerExit] ∧
    ∀ i ∈ [read, write], resultOf (exec i (inPowerOff .off false)) = none := by decide

theorem witness_ReadStateGate :
    (let s := sys .off false 30 Caller.idle
     s.idleAs Caller.idle ∧ (Instr.read 0x06 0x04 3 4 (buf 4)).wellFormed s.par = true ∧ 30 ≤ s.quantum ∧
       s.link = .off ∧ s.lock ≠ .held s.cur) ∧
    (let s := sys .doze true 30 Caller.idle
     s.idleAs Caller.idle ∧ s.link = .doze ∧ s.pdActive = true ∧ s.lock = .free) ∧
    ∀ link up, (let s := inPowerOff link up
      (Instr.write 0x05 0x29 0 0 none).opcode = 0x8 ∧ (Instr.read 0x06 0x04 3 4 (buf 4)).opcode = 0x9 ∧
        s.callers[s.cur]? = some poweringOff ∧ poweringOff.accepts = true ∧
        (Instr.write 0x05 0x29 0 0 none).wellFormed s.par = true ∧
        (Instr.read 0x06 0x04 3 4 (buf 4)).wellFormed s.par = true ∧ s.lock = .held s.cur ∧ 30 ≤ s.quantum) := by
  refine ⟨⟨(ready _ _).1, by decide, (ready _ _).2.2, rfl, by decide⟩, ⟨(ready _ _).1, rfl, rfl, rfl⟩, ?_⟩
  intro link up
  exact ⟨rfl, rfl, rfl, rfl, test_wf_commands.1, test_wf_commands.2, rfl, Nat.le_refl 30⟩

/-- A READ in ULPS, and one whose response came after the power went. -/
theorem witness_ReadWithoutPowerFaults :
    (let s := sys .ulps false 30 Caller.idle
     s.idleAs Caller.idle ∧ (Instr.read 0x06 0x04 3 4 (buf 4)).wellFormed s.par = true ∧ s.link ≠ .off ∧
       s.pdActive = false ∧ s.lock ≠ .held s.cur ∧ 30 ≤ s.quantum) ∧
    (let s : State := { sys .off false 10 (busy (.read (reading .r6 5))) with sigRd := ⟨true⟩, now := 104 }
     s.runs (busy (.read (reading .r6 5))) (.read (reading .r6 5)) [] ∧ (reading .r6 5).ctl.label = .r6 ∧
       s.sigRd.done = true ∧ s.now < (reading .r6 5).t0 + s.par.rdTimeout.val ∧ s.lock = .free ∧ s.pdActive = false ∧
       10 ≤ s.quantum) :=
  ⟨⟨(ready _ _).1, by decide, by decide, rfl, by decide, (ready _ _).2.2⟩, ⟨rfl, rfl, rfl⟩, rfl, rfl, by decide, rfl,
    rfl, by decide⟩

/-- An acknowledged low byte of `max_len`, one that is not with the FIFO writable or not; and the first request signaled in the
last tick of its wait. -/
theorem witness_ReadSendsItsRequests :
    (∀ l, (let s := on l
      s.idleAs Caller.idle ∧ (Instr.read 0x06 0x04 3 4 (buf 4)).wellFormed s.par = true ∧
        (Instr.read 0x06 0x04 0x0129 4 (buf 4)).wellFormed s.par = true ∧ s.link = .on ∧ s.pdActive = true ∧
        s.lock = .free ∧ 60 ≤ s.quantum ∧ s.par.ackRequired .shortWrite (some (lowByte 0x0129)) = true ∧
        s.par.ackRequired .shortWrite (some (lowByte 3)) = false)) ∧
    asBool (on [0]).answer = false ∧ asBool (on [1]).answer = true ∧
    (let s : State := { running (.read (requesting .r4)) true [] with sigPh := ⟨true⟩, now := 54 }
     s.runs (busy (.read (requesting .r4))) (.read (requesting .r4)) [] ∧ (requesting .r4).ctl.label = .r4 ∧
       (requesting .r4).sub = some waitingWrite ∧ waitingWrite.ctl.label = .w9 ∧ s.lock = .held s.cur ∧
       s.sigPh.done = true ∧ s.now < waitingWrite.t0 + s.par.wrTimeout.val ∧ s.sigRd.done = false ∧ s.link = .on ∧
       s.pdActive = true ∧ 60 ≤ s.quantum) := by
  refine ⟨?_, by decide, by decide, ⟨rfl, rfl, rfl⟩, rfl, rfl, rfl, rfl, rfl, by decide, rfl, rfl, rfl, by decide⟩
  intro l
  exact ⟨⟨rfl, rfl⟩, rfl, rfl, rfl, rfl, rfl, Nat.le_refl 60, rfl, rfl⟩

theorem witness_ReadWaitsForTheResponse :
    let f : ReadFrame := { reading .r5 5 with sub := some waitingWrite }
    let s : State := { running (.read f) true [] with sigPh := ⟨true⟩, now := 54 }
    s.runs (busy (.read f)) (.read f) [] ∧ f.ctl.label = .r5 ∧ f.sub = some waitingWrite ∧
      waitingWrite.ctl.label = .w9 ∧ s.lock = .held s.cur ∧ s.sigPh.done = true ∧
      s.now < waitingWrite.t0 + s.par.wrTimeout.val ∧ s.sigRd.done = false ∧ 10 ≤ s.quantum :=
  ⟨⟨rfl, rfl, rfl⟩, rfl, rfl, rfl, rfl, rfl, by decide, rfl, by decide⟩

/-- Either request fails. -/
theorem witness_ReadPropagatesTheFirstError :
    let g : WriteFrame := { waitingWrite with ctl := ⟨.w13, .timeout⟩ }
    let f4 : ReadFrame := { reading .r4 5 with sub := some g }
    let f5 : ReadFrame := { reading .r5 5 with sub := some g }
    ((running (.read f4) false []).runs (busy (.read f4)) (.read f4) [] ∧ f4.ctl.label = .r4) ∧
    ((running (.read f5) false []).runs (busy (.read f5)) (.read f5) [] ∧ f5.ctl.label = .r5) ∧
    f4.sub = some g ∧ f5.sub = some g ∧ g.ctl.label = .w13 ∧ g.ctl.res ≠ .ok ∧
      5 ≤ (running (.read f4) false []).quantum :=
  ⟨⟨⟨rfl, rfl, rfl⟩, rfl⟩, ⟨⟨rfl, rfl, rfl⟩, rfl⟩, rfl, rfl, rfl, by decide, by decide⟩

/-- The tick of the timeout. -/
theorem witness_ReadTimeout :
    let s : State := { running (.read (reading .r6 5)) false [] with now := 105 }
    s.runs (busy (.read (reading .r6 5))) (.read (reading .r6 5)) [] ∧ (reading .r6 5).ctl.label = .r6 ∧
      s.sigRd.done = false ∧ (reading .r6 5).t0 + s.par.rdTimeout.val ≤ s.now ∧ 5 ≤ s.quantum :=
  ⟨⟨rfl, rfl, rfl⟩, rfl, rfl, by decide, by decide⟩

/-- A READ whose response has come in the last tick of its wait, these packets in the FIFO. -/
def answeredBy (l : List RxPacket) : State :=
  { running (.read (reading .r6 5)) false (rxAnswers l) with sigRd := ⟨true⟩, now := 104 }

/-- It meets what both drain statements ask of the state. -/
theorem answeredBy_meets (l : List RxPacket) :
    (answeredBy l).runs (busy (.read (reading .r6 5))) (.read (reading .r6 5)) [] ∧ (reading .r6 5).ctl.label = .r6 ∧
      (answeredBy l).sigRd.done = true ∧ (answeredBy l).now < (reading .r6 5).t0 + (answeredBy l).par.rdTimeout.val ∧
      (answeredBy l).lock = .free ∧ (answeredBy l).pdActive = true ∧ (answeredBy l).answers = rxAnswers l ++ [] :=
  ⟨⟨rfl, rfl, rfl⟩, rfl, rfl, Nat.lt_succ_self 104, rfl, rfl, (List.append_nil _).symm⟩

/-- One packet of each class that raises no error. -/
def shortOne : RxPacket := ⟨0x00009C21, []⟩
def shortTwo : RxPacket := ⟨0x00BBAA22, []⟩
def longFive : RxPacket := ⟨0x0000051C, [0x44332211, 0xFFFFFF55]⟩
def endOfTransmission : RxPacket := ⟨0x00000008, []⟩

theorem witness_ReadDrainsOneResponse :
    ∀ k ∈ [shortOne, shortTwo, longFive, endOfTransmission], k.sound (answeredBy [k]).par ∧
      (answeredBy [k]).answers = rxAnswers [k] ++ [] ∧ drainSteps [k] ≤ (answeredBy [k]).quantum := by
  intro k hk
  simp only [List.mem_cons, List.not_mem_nil, or_false] at hk
  rcases hk with rfl | rfl | rfl | rfl <;> exact ⟨rfl, rfl, by decide⟩

/-- Three packets; six bytes of which the buffer holds four. -/
theorem witness_ReadConcatenatesResponses :
    let l := [shortOne, longFive, endOfTransmission]
    let s := answeredBy l
    l ≠ [] ∧ l.length ≤ s.par.rxFifoDepth.val ∧ (∀ k ∈ l, k.sound s.par) ∧ s.answers = rxAnswers l ++ [] ∧
      drainSteps l ≤ s.quantum ∧ l.flatMap (RxPacket.bytes s.par) = [0x9C, 0x11, 0x22, 0x33, 0x44, 0x55] := by
  refine ⟨by decide, by decide, ?_, by decide, by decide, by decide⟩
  intro k hk
  simp only [List.mem_cons, List.not_mem_nil, or_false] at hk
  rcases hk with rfl | rfl | rfl <;> exact rfl

/-- The three ways a drain fails: an error report, a tag in no class, the last iteration with the FIFO not empty. -/
theorem witness_ReadProtocolErrors :
    (let s := running (.read (reading .r9 5)) true [2]
     s.runs (busy (.read (reading .r9 5))) (.read (reading .r9 5)) [] ∧ s.lock = .held s.cur ∧ s.pdActive = true ∧
       10 ≤ s.quantum ∧ (reading .r9 5).ctl.label = .r9 ∧ s.par.rxTagClass (rxTag (asWord s.answer)) = .ackErr) ∧
    (let s := running (.read (reading .r9 5)) true [0]
     s.par.rxTagClass (rxTag (asWord s.answer)) = .other) ∧
    (let f : ReadFrame := { reading .r15 5 with iter := 1 }
     let s := running (.read f) true [0]
     s.runs (busy (.read f)) (.read f) [] ∧ f.ctl.label = .r15 ∧ f.iter ≤ 1 ∧ asBool s.answer = false) :=
  ⟨⟨⟨rfl, rfl, rfl⟩, rfl, rfl, by decide, rfl, by decide⟩, by decide, ⟨rfl, rfl, rfl⟩, rfl, by decide, by decide⟩

/-! ### The handler and the watchdog -/

theorem witness_HandlerStartAndEarlyExit :
    ((on []).irq.label = .idle ∧ (on []).irqEnabled = true ∧ (on []).irqBusy = false) ∧
    ((sys .off false 0 Caller.idle).irq.label = .idle ∧ (sys .off false 0 Caller.idle).irqEnabled = false) ∧
    (let s : State := { on [] with pdActive := false }
     s.irq.label = .idle ∧ s.irqEnabled = true ∧ s.irqBusy = false ∧ s.pdActive = false) := by decide

theorem witness_HandlerRun :
    let s := on [0x3B]
    s.irq.label = .idle ∧ s.irqEnabled = true ∧ s.irqBusy = false ∧ s.pdActive = true := by decide

/-- Each clause's bit, and the neighbouring bit alone. -/
theorem witness_HandlerActions :
    (∀ l, { on [] with irq := ⟨l, 0x0B⟩ }.irq.label = l ∧ { on [] with irq := ⟨l, 0x0B⟩ }.pdActive = true) ∧
    pendingBit 0x0B 0 = true ∧ pendingBit 0x0B 1 = true ∧ pendingBit 0x0B 3 = true ∧ pendingBit 0x05 1 = false :=
  ⟨fun _ => ⟨rfl, rfl⟩, by decide, by decide, by decide, by decide⟩

/-- One tick before the deadline, and at it. -/
theorem witness_WatchdogExpiry :
    (let s : State := { on [] with wd := ⟨true, 11⟩ }
     s.now < s.wd.deadline) ∧
    (let s : State := { on [] with wd := ⟨true, 10⟩ }
     s.wd.armed = true ∧ s.wd.deadline ≤ s.now ∧ s.pdActive = true) := by decide

theorem witness_WatchdogWritesOnly :
    ∃ t, wdtTurn { on [1] with wd := ⟨true, 10⟩ } = .next t ∧ t.wd = ⟨false, 10⟩ := ⟨_, rfl, rfl⟩

theorem witness_HandlerFrame : ∃ t, irqTurn (on []) = .next t ∧ t.irqBusy = true := ⟨_, rfl, rfl⟩

end Sys2Proof.Tests
end

section
/-! PROOFS. Predicates over states that micro-steps keep: what each shared operation hands to its continuation, the elementary
updates an operation is made of, and so what every operation keeps. The configuration, the parameters and the fault are the
first use (O17). -/

namespace Sys2Proof.Machine

/-! ## What a micro-step leaves -/

/-- `P` holds of the state that a micro-step leaves, if it leaves one. -/
def Micro.Leaves {F : Type} (P : State → Prop) : Micro F → Prop
  | .blocked | .fault _ => True
  | .cont _ s | .ret _ s => P s

section
variable {F : Type} (P : State → Prop)

@[simp] theorem Micro.leaves_blocked : (Micro.blocked : Micro F).Leaves P := trivial
@[simp] theorem Micro.leaves_fault (r : Fault) : (Micro.fault r : Micro F).Leaves P := trivial
@[simp] theorem Micro.leaves_cont (f : F) (s : State) : (Micro.cont f s).Leaves P ↔ P s := Iff.rfl
@[simp] theorem Micro.leaves_ret (r : Result) (s : State) : (Micro.ret r s : Micro F).Leaves P ↔ P s := Iff.rfl

@[simp] theorem Micro.leaves_ite (c : Prop) [Decidable c] (m m' : Micro F) :
    (if c then m else m').Leaves P ↔ (c → m.Leaves P) ∧ (¬c → m'.Leaves P) := by
  by_cases hc : c <;> simp [hc]

@[simp] theorem leaves_reg (s : State) (e : Event) (k : State → Micro F) :
    (reg s e k).Leaves P ↔ (s.pdActive = true → (k (s.record e)).Leaves P) := by simp [reg]

@[simp] theorem leaves_regAsk {α : Type} (s : State) (read : Nat → α) (e : α → Event) (k : α → State → Micro F) :
    (regAsk s read e k).Leaves P ↔
      (s.pdActive = true → (k (read s.answer) (s.answered.record (e (read s.answer)))).Leaves P) := by simp [regAsk]

@[simp] theorem leaves_dump (s : State) (c : DumpCause) (k : State → Micro F) :
    (dump s c k).Leaves P ↔ (s.pdActive = true → (k (s.record (.dump c))).Leaves P) := leaves_reg P s _ k

@[simp] theorem leaves_lockThen (a : Nat) (s : State) (k : State → Micro F) :
    (lockThen a s k).Leaves P ↔ (s.lock = .free → (k (s.setLock (.held a))).Leaves P) := by simp [lockThen]

@[simp] theorem leaves_unlessStuck (a : Nat) (s : State) (ends : Bool) (m : Micro F) :
    (unlessStuck a s ends m).Leaves P ↔ (¬(ends = true ∧ s.lock = .held a) → m.Leaves P) := by
  simp only [unlessStuck, Micro.leaves_ite, Micro.leaves_blocked, implies_true, true_and]

@[simp] theorem leaves_irqLineDisableThen (s : State) (k : State → Micro F) :
    (irqLineDisableThen s k).Leaves P ↔ (s.irqBusy = false → (k (s.act .irqLineDisable)).Leaves P) := by
  simp [irqLineDisableThen]

/-- A wait goes on from its own state, or at a tie from the one in which the environment has answered (rule R237). -/
theorem leaves_waitThen {s : State} {onSignal onTimeout : State → Micro F} (done : Bool) (t0 limit : Nat)
    (hsig : ∀ t, t = s ∨ t = s.answered → (onSignal t).Leaves P)
    (htime : ∀ t, t = s ∨ t = s.answered → (onTimeout t).Leaves P) :
    (waitThen s done t0 limit onSignal onTimeout).Leaves P := by
  unfold waitThen
  split
  · trivial
  · exact hsig s (.inl rfl)
  · exact htime s (.inl rfl)
  · exact (Micro.leaves_ite P _ _ _).mpr ⟨fun _ => htime _ (.inr rfl), fun _ => hsig _ (.inr rfl)⟩

end

/-! ## The events that operations record

Each is one that some rule calls (rules R62, R301). The proofs are `(rfl)` and not `rfl`, so that `simp` uses them as rewrites
where it discharges the side condition of `KeptByOps.record`. -/

@[simp] theorem Event.neverCalled_writeHeader (id d0 d1 : Byte) (r : Bool) :
    (Event.writeHeader id d0 d1 r).neverCalled = false := (rfl)
@[simp] theorem Event.neverCalled_writePayload (w : Word) : (Event.writePayload w).neverCalled = false := (rfl)
@[simp] theorem Event.neverCalled_readRxFifo (w : Word) : (Event.readRxFifo w).neverCalled = false := (rfl)
@[simp] theorem Event.neverCalled_headerFifoEmpty (b : Bool) : (Event.headerFifoEmpty b).neverCalled = false := (rfl)
@[simp] theorem Event.neverCalled_fifoWritable (b : Bool) : (Event.fifoWritable b).neverCalled = false := (rfl)
@[simp] theorem Event.neverCalled_rxFifoEmpty (b : Bool) : (Event.rxFifoEmpty b).neverCalled = false := (rfl)
@[simp] theorem Event.neverCalled_clearInterrupt (m : Word) : (Event.clearInterrupt m).neverCalled = false := (rfl)
@[simp] theorem Event.neverCalled_decodeRxError (w : Word) (c : ErrorCode) :
    (Event.decodeRxError w c).neverCalled = false := (rfl)
@[simp] theorem Event.neverCalled_pllStable (b : Bool) : (Event.pllStable b).neverCalled = false := (rfl)
@[simp] theorem Event.neverCalled_act (a : Action) : (Event.act a).neverCalled = false := (rfl)
@[simp] theorem Event.neverCalled_dump (c : DumpCause) : (Event.dump c).neverCalled = false := (rfl)
@[simp] theorem Event.neverCalled_blockLowPowerExit : Event.blockLowPowerExit.neverCalled = false := (rfl)
@[simp] theorem Event.neverCalled_unblockLowPowerExit : Event.unblockLowPowerExit.neverCalled = false := (rfl)
@[simp] theorem Event.neverCalled_powerOn : (Event.panel .powerOn).neverCalled = false := (rfl)
@[simp] theorem Event.neverCalled_powerOff : (Event.panel .powerOff).neverCalled = false := (rfl)
@[simp] theorem Event.neverCalled_reset : (Event.panel .reset).neverCalled = false := (rfl)

@[simp] theorem Event.neverCalled_wakeCallback (p : Params) (target : LinkState) :
    (Event.panel (wakeCallback p target)).neverCalled = false := by
  cases target <;> cases hw : p.panelWake <;> simp only [wakeCallback, hw] <;> rfl

/-! ## What every operation keeps -/

/-- `P` is kept by each elementary update that the operations of caller agent `a` are made of. -/
structure KeptByOps (a : Nat) (P : State → Prop) : Prop where
  record (s : State) (e : Event) (he : e.neverCalled = false) (h : P s) : P (s.record e)
  answered (s : State) (h : P s) : P s.answered
  setLink (s : State) (v : LinkState) (h : P s) : P (s.setLink v)
  takeLock (s : State) (hl : s.lock = .free) (h : P s) : P (s.setLock (.held a))
  unlock (s : State) (h : P s) : P (s.unlock a)
  setSigPh (s : State) (v : Signal) (h : P s) : P (s.setSigPh v)
  setSigRd (s : State) (v : Signal) (h : P s) : P (s.setSigRd v)
  setWd (s : State) (v : Watchdog) (h : P s) : P (s.setWd v)
  setPdActive (s : State) (v : Bool) (h : P s) : P (s.setPdActive v)
  setPhyOn (s : State) (v : Bool) (h : P s) : P (s.setPhyOn v)
  setIrqEnabled (s : State) (v : Bool) (h : P s) : P (s.setIrqEnabled v)
  memWrite (s : State) (addr : Nat) (v : Byte) (h : P s) : P (s.setMem (Memory.write s.mem addr v))
  modifyCaller (s : State) (f : Caller → Caller) (h : P s) : P (s.modifyCaller a f)

section
variable {a : Nat} {P : State → Prop} {s : State} (hP : KeptByOps a P)
include hP

theorem KeptByOps.act (s : State) (act : Action) (h : P s) : P (s.act act) := by
  have hr : P (s.record (.act act)) := hP.record s _ rfl h
  cases act with
  | clkDomainResume | clkDomainSuspend => exact hP.setPdActive _ _ hr
  | phyIsoRelease | phyPowerOff => exact hP.setPhyOn _ _ hr
  | irqLineEnable | irqLineDisable => exact hP.setIrqEnabled _ _ hr
  | _ => exact hr

theorem bringUp_keeps (goal : LinkState) (f : BuFrame) (h : P s) : (bringUp goal a f s).Leaves P := by
  have hd : P (s.setWd { s.wd with armed := false }) := hP.setWd _ _ h
  cases hl : f.ctl.label <;>
    simp +contextual [bringUp, hl, h, apply_ite P, hd, State.actAsk, hP.record, hP.answered, hP.setLink, hP.takeLock,
      hP.unlock, hP.act]

theorem tearDown_keeps (goal : LinkState) (f : TdFrame) (h : P s) : (tearDown goal a f s).Leaves P := by
  cases hl : f.ctl.label <;>
    simp +contextual [tearDown, hl, h, apply_ite P, powerOffIfOff, hP.record, hP.setWd, hP.setLink, hP.takeLock,
      hP.unlock, hP.act]

theorem enterLpStep_keeps (f : ElFrame) (h : P s) : (enterLpStep a f s).Leaves P := by
  cases hl : f.ctl.label <;>
    simp +contextual [enterLpStep, hl, h, State.actAsk, hP.record, hP.answered, hP.setWd, hP.setLink, hP.takeLock,
      hP.unlock, hP.act]

theorem exitLpStep_keeps (f : XlFrame) (h : P s) : (exitLpStep a f s).Leaves P := by
  cases hl : f.ctl.label <;>
    simp +contextual [exitLpStep, hl, h, State.actAsk, hP.answered, hP.setLink, hP.takeLock, hP.unlock, hP.act]

theorem writeStep_keeps (f : WriteFrame) (h : P s) : (writeStep a f s).Leaves P := by
  have ha : P s.answered := hP.answered s h
  cases hl : f.ctl.label with
  | w9 =>
    simp only [writeStep, hl]
    refine leaves_waitThen P _ _ _ ?_ ?_ <;> rintro t (rfl | rfl) <;> simp [h, ha, hP.setSigPh]
  | _ =>
    simp +contextual [writeStep, hl, h, ha, apply_ite P, decideWait, hP.record, hP.setSigPh, hP.setWd, hP.takeLock,
      hP.unlock]

theorem nestedWrite_keeps (f : ReadFrame) (g : WriteFrame) (l : RLabel) (h : P s) :
    (nestedWrite a f g l s).Leaves P := by
  unfold nestedWrite
  split
  · exact h
  · rename_i w _
    have hw := writeStep_keeps hP w h
    split <;> simp_all

theorem appendByte_keeps (f : ReadFrame) (b : Byte) (l : RLabel) (h : P s) : (appendByte f b l s).Leaves P := by
  simp [appendByte, h, hP.memWrite]

theorem readStep_keeps (f : ReadFrame) (h : P s) : (readStep a f s).Leaves P := by
  have ha : P s.answered := hP.answered s h
  cases hl : f.ctl.label with
  | r4 => simpa only [readStep, hl] using nestedWrite_keeps hP f _ _ h
  | r5 =>
    have hw := nestedWrite_keeps hP f (requestWrite f.ty f.d0) .r6 h
    simp only [readStep, hl]
    split <;> simp_all
  | r6 =>
    simp only [readStep, hl]
    refine leaves_waitThen P _ _ _ ?_ ?_ <;> rintro t (rfl | rfl) <;> simp [h, ha, hP.setSigRd]
  | _ =>
    simp +contextual [readStep, hl, h, ha, appendByte_keeps hP, hP.record, hP.setSigRd, hP.takeLock, hP.unlock]

/-- A turn given to an operation keeps what every micro-step of it keeps. -/
theorem conduct_keeps {F : Type} {refusal : Option Refusal} {start : Option F} {view : Frame → Option F}
    {wrap : F → Frame} {micro : Nat → F → State → Micro F} {t : State} (ha : s.cur = a)
    (hmicro : ∀ f u, P u → (micro a f u).Leaves P) (h : P s) (ht : conduct refusal start view wrap micro s = .next t) :
    P t := by
  subst ha
  have hburst {n f u} (hu : P u) (hb : burst s.cur wrap micro n f u = .next t) : P t :=
    burst_next (fun _ v => P v) P (fun f v f' v' hv hm => by simpa [hm] using hmicro f v hv)
      (fun _ _ hv => hP.modifyCaller _ _ hv)
      (fun f v r v' hv hm => hP.modifyCaller _ _ (by simpa [hm] using hmicro f v hv)) hu hb
  rcases conduct_cases ht with ⟨_, hs⟩ | ⟨c, _, _, ⟨r, _, hr⟩ | ⟨_, hadmit⟩⟩ | ⟨c, _, _, ⟨_, hr⟩ | ⟨f, _, hb⟩⟩
  · cases hs; exact h
  · cases hr
  · cases start with
    | none => rw [admitThen_none] at hadmit; cases hadmit; exact hP.modifyCaller _ _ h
    | some f =>
      cases hq : s.quantum with
      | zero => rw [hq, admitThen_zero] at hadmit; cases hadmit; exact hP.modifyCaller _ _ h
      | succ n => rw [hq, admitThen_some] at hadmit; exact hburst (hP.modifyCaller _ _ h) hadmit
  · cases hr
  · exact hburst h hb

theorem answerUnsupported_keeps {t : State} (ha : s.cur = a) (h : P s) (ht : answerUnsupported s = .next t) : P t := by
  subst ha
  unfold answerUnsupported at ht
  split at ht
  · cases ht; exact h
  · split at ht <;> cases ht
    exact hP.modifyCaller _ _ h

/-- Every operation keeps what its elementary updates keep. -/
theorem exec_keeps {i : Instr} {t : State} (ha : s.cur = a) (h : P s) (ht : exec i s = .next t) : P t := by
  cases i with
  | enable => exact conduct_keeps hP ha (fun f _ => bringUp_keeps hP _ f) h (show execEnable s = _ from ht)
  | disable => exact conduct_keeps hP ha (fun f _ => tearDown_keeps hP _ f) h (show execDisable s = _ from ht)
  | enterLp => exact conduct_keeps hP ha (fun f _ => enterLpStep_keeps hP f) h (show execEnterLp s = _ from ht)
  | exitLp => exact conduct_keeps hP ha (fun f _ => exitLpStep_keeps hP f) h (show execExitLp s = _ from ht)
  | doze => exact conduct_keeps hP ha (fun f _ => bringUp_keeps hP _ f) h (show execDoze s = _ from ht)
  | dozeSuspend => exact conduct_keeps hP ha (fun f _ => tearDown_keeps hP _ f) h (show execDozeSuspend s = _ from ht)
  | write => exact conduct_keeps hP ha (fun f _ => writeStep_keeps hP f) h ht
  | read => exact conduct_keeps hP ha (fun f _ => readStep_keeps hP f) h ht
  | reserved6 | reserved7 | reservedA | reservedB | reservedC | reservedD | reservedE | reservedF =>
    exact answerUnsupported_keeps hP ha h ht

/-- A caller agent's turn keeps what the operations of that agent keep, once it has the turn. -/
theorem callerTurn_keeps {more : Nat} {t : State} (h : P s) (hfocus : P (s.focus a more))
    (ht : callerTurn a more s = .next t) : P t := by
  unfold callerTurn at ht
  split at ht
  · cases ht; exact h
  · split at ht
    · cases ht; exact h
    · cases ht
    · exact exec_keeps hP rfl hfocus ht

end

/-! ## The configuration, the parameters and the fault (rules R7, R18, R40, R306) -/

/-- `t` has the configuration, the link index, the parameters, the fault and the number of caller agents of `s`. -/
def State.SameSetup (s t : State) : Prop :=
  t.cfg = s.cfg ∧ t.linkIndex = s.linkIndex ∧ t.par = s.par ∧ t.fault = s.fault ∧ t.callers.length = s.callers.length

theorem sameSetup_keptByOps (s : State) (a : Nat) : KeptByOps a s.SameSetup := by
  constructor <;> simp [State.SameSetup, modifyCaller_length]

/-- A turn of the interrupt agent leaves the setup alone. -/
theorem irqTurn_sameSetup {s t : State} (ht : irqTurn s = .next t) : s.SameSetup t := by
  have hstep : (irqStep s.irq s).Leaves s.SameSetup := by
    cases hl : s.irq.label <;> simp [irqStep, hl, State.SameSetup, apply_ite]
  unfold irqTurn at ht
  split at ht <;> cases ht <;> simp_all [State.SameSetup]

/-- A turn of the watchdog agent leaves the setup alone. -/
theorem wdtTurn_sameSetup {s t : State} (ht : wdtTurn s = .next t) : s.SameSetup t := by
  have hstep : (wdtStep s).Leaves s.SameSetup := by simp [wdtStep, State.SameSetup]
  unfold wdtTurn at ht
  split at ht <;> cases ht <;> simp_all [State.SameSetup]

/-- A request presented at a port leaves the setup alone. -/
theorem presentRequest_sameSetup {a : Nat} {r : Request} {s t : State} (ht : presentRequest a r s = .next t) :
    s.SameSetup t := by
  unfold presentRequest at ht
  split at ht
  · cases ht; simp [State.SameSetup]
  · split at ht <;> cases ht
    simp [State.SameSetup, modifyCaller_length]

theorem runTurn_sameSetup {turn : Turn} {s t : State} (ht : runTurn turn s = .next t) : s.SameSetup t := by
  cases turn with
  | caller a more =>
    exact callerTurn_keeps (sameSetup_keptByOps s a) (by simp [State.SameSetup]) (by simp [State.SameSetup]) ht
  | irq => exact irqTurn_sameSetup ht
  | wdt => exact wdtTurn_sameSetup ht
  | tick | hostStore addr v => cases ht; simp [State.SameSetup]
  | request a r => exact presentRequest_sameSetup ht

/-- Settles O17: every turn keeps the setup, and taking the turn from the schedule does too. -/
theorem configurationNeverWritten : Obligations.ConfigurationNeverWritten := by
  intro s t ht
  unfold step at ht
  split at ht
  · cases ht
  · simpa [State.SameSetup] using runTurn_sameSetup ht

end Sys2Proof.Machine
end

section
/-! PROOFS. What a step runs (O7), the state after attach (O11, O12) and the start of a handler run (O55). -/

namespace Sys2Proof.Machine

/-! ## The caller's turn, and the state after attach -/

/-- A step that goes on takes the next turn: there is no fault, and that turn leads to the next state. -/
theorem step_next {s t : State} (ht : step s = .next t) : runTurn s.nextTurn s.turnTaken = .next t := by
  unfold step at ht
  split at ht
  · cases ht
  · exact ht

/-- Without a fault, a listed turn is the one taken. -/
theorem step_of_turns {s : State} {turn : Turn} {later : List Turn} (hf : s.fault = none)
    (hturn : s.turns = turn :: later) : step s = runTurn turn (s.setTurns later s.turnDraws) := by
  simp [step, hf, State.nextTurn, State.turnTaken, hturn]

/-- Settles O7: the operation executed is `Caller.nextInstr`, by whether the agent accepts and what stands at its port. -/
theorem stepRunsTheDecodedOperation : Obligations.StepRunsTheDecodedOperation := by
  intro s a more later hf hturn
  have hstep : step s = callerTurn a more (s.setTurns later s.turnDraws) := step_of_turns hf hturn
  refine ⟨?_, ?_, ?_, ?_, ?_⟩
  · intro c r i hc hacc hport hi
    simp [hstep, callerTurn, hc, Caller.nextInstr, hacc, hport, hi]
  · intro c f rest hc hacc hstack
    simp [hstep, callerTurn, hc, Caller.nextInstr, hacc, hstack]
  · intro c r e hc hacc hport he
    simp [hstep, callerTurn, hc, Caller.nextInstr, hacc, hport, he]
  · intro c hc hstack hport
    have hacc : c.accepts = true := by simp [Caller.accepts, hstack]
    simp [hstep, callerTurn, hc, Caller.nextInstr, hacc, hport]
  · intro hc
    simp [hstep, callerTurn, hc]

/-- After attach every caller agent is `Idle` with nothing presented (rule R45). -/
theorem reset_caller_eq_idle {c : Caller} (hc : c ∈ State.reset.callers) : c = Caller.idle := by
  have hcases : c = Caller.idle ∨ c ∈ List.replicate Config.otherCallers Caller.idle := List.mem_cons.mp hc
  exact hcases.elim id List.eq_of_mem_replicate

/-- Settles O11: each field is read off the reset state; that of the caller agents is `reset_caller_eq_idle`. -/
theorem resetState : Obligations.ResetState := by
  refine ⟨rfl, rfl, rfl, rfl, rfl, rfl, rfl, rfl, rfl, rfl, rfl, rfl, ?_, ?_, rfl⟩
  · intro c hc
    simp [reset_caller_eq_idle hc, Caller.idle]
  · simp [State.reset]

/-- Settles O12: after attach no operation is in flight and the lock is free, so each part of the invariant is about INIT with
everything off. -/
theorem resetMeetsTheInvariant : Obligations.ResetMeetsTheInvariant := by
  have hstack : ∀ c ∈ State.reset.callers, c.stack = [] := fun c hc => by simp [reset_caller_eq_idle hc, Caller.idle]
  have htargets : State.reset.targetsSet := fun c hc fr hfr => by simp [hstack c hc] at hfr
  have hlock : State.reset.lockAccounted := by
    refine ⟨fun a c hc => ?_, fun a ha => by simp [State.reset] at ha⟩
    simp [hstack c (List.mem_of_getElem? hc), State.reset]
  have hshared : State.reset.duringLockHolds := by
    simp [State.duringLockHolds, State.reset, State.settled, LinkState.onClass]
  have hhandler : State.reset.handlerAccounted := by simp [State.handlerAccounted, State.reset]
  exact ⟨⟨htargets, hlock, hshared, hhandler⟩, State.reset_mem_wf⟩

/-! ## The handler's start -/

/-- `H.0` starts a run and takes the handler spinlock (rule R261). -/
theorem irqTurn_starts {s : State} (hidle : s.irq.label = .idle) (hen : s.irqEnabled = true) (hbusy : s.irqBusy = false) :
    irqTurn s = .next { s with irqBusy := true, irq := ⟨.h1, s.irq.p⟩ } := by
  simp only [irqTurn, irqStep, hidle, if_pos (And.intro hen hbusy)]
  rfl

/-- Between two runs, and while the line is disabled, a turn of the interrupt agent does nothing. -/
theorem irqTurn_of_not_enabled {s : State} (hidle : s.irq.label = .idle)
    (h : ¬ (s.irqEnabled = true ∧ s.irqBusy = false)) : irqTurn s = .next s := by
  simp only [irqTurn, irqStep, hidle, if_neg h]

/-- `H.1` goes on with the pending mask only if the power domain is active (rule R262). -/
theorem irqTurn_checks_power {s : State} (h1 : s.irq.label = .h1) :
    irqTurn s = .next { s with irq := ⟨if s.pdActive then .h2 else .h9, s.irq.p⟩ } := by
  simp only [irqTurn, irqStep, h1]
  rfl

/-- `H.9` ends the run and gives the handler spinlock back (rule R271). -/
theorem irqTurn_ends {s : State} (h9 : s.irq.label = .h9) :
    irqTurn s = .next { s with irqBusy := false, irq := ⟨.idle, s.irq.p⟩ } := by
  simp only [irqTurn, irqStep, h9]
  rfl

/-- Settles O55: the early exit is `H.0`, `H.1` without power, and `H.9`. -/
theorem handlerStartAndEarlyExit : Obligations.HandlerStartAndEarlyExit := by
  intro s hidle
  refine ⟨irqTurn_starts hidle, fun h => irqTurn_of_not_enabled hidle (by rcases h with h | h <;> simp [h]), ?_⟩
  intro hen hbusy hpd
  have hsame : { s with irqBusy := false, irq := ⟨.idle, s.irq.p⟩ } = s := by rw [← hidle, ← hbusy]
  simpa [repeatTurn, irqTurn_starts hidle hen hbusy, irqTurn_checks_power, irqTurn_ends, hpd] using hsame

end Sys2Proof.Machine
end

section
/-! PROOFS. What every step keeps, turn by turn: the history only grows (O18), the lock stays with its holder (O23), time and
the under-run counter (O22), and the frame of every operation (O24). -/

namespace Sys2Proof.Machine

/-- A micro-step that leaves `P` leaves whatever `P` implies. -/
theorem Micro.Leaves.mono {F : Type} {P Q : State → Prop} {m : Micro F} (h : m.Leaves P) (himp : ∀ t, P t → Q t) :
    m.Leaves Q := by
  cases m with
  | blocked | fault => trivial
  | cont f s | ret r s => exact himp s h

/-! ## What the turns of the other agents keep -/

/-- A turn of the interrupt agent keeps what its micro-step keeps, the handler's latches aside. -/
theorem irqTurn_keeps {P : State → Prop} {s t : State} (h : P s) (hstep : (irqStep s.irq s).Leaves P)
    (hirq : ∀ u f, P u → P (u.setIrq f)) (ht : irqTurn s = .next t) : P t := by
  unfold irqTurn at ht
  split at ht <;> cases ht
  · exact h
  · rename_i hm
    rw [hm] at hstep
    exact hirq _ _ hstep
  · rename_i hm
    rwa [hm] at hstep

/-- A turn of the watchdog agent keeps what its step keeps, the watchdog's latch aside. -/
theorem wdtTurn_keeps {P : State → Prop} {s t : State} (h : P s) (hstep : (wdtStep s).Leaves P)
    (hwdt : ∀ u f, P u → P (u.setWdt f)) (ht : wdtTurn s = .next t) : P t := by
  unfold wdtTurn at ht
  split at ht <;> cases ht
  · exact h
  · rename_i hm
    rw [hm] at hstep
    exact hwdt _ _ hstep
  · rename_i hm
    rwa [hm] at hstep

/-- A request that is presented changes its agent's record, or nothing where there is no such agent. -/
theorem presentRequest_next {a : Nat} {r : Request} {s t : State} (ht : presentRequest a r s = .next t) :
    t = s ∨ t = s.modifyCaller a fun c => { c with port := some r } := by
  unfold presentRequest at ht
  split at ht
  · cases ht; exact .inl rfl
  · split at ht <;> cases ht
    exact .inr rfl

/-! ## The history (rules R39, R62, R301) -/

/-- `t` has the history of `s` and after it only events that some rule calls. -/
def State.Extends (s t : State) : Prop := ∃ es, t.hist = s.hist ++ es ∧ ∀ e ∈ es, e.neverCalled = false

theorem State.Extends.of_hist_eq {s t : State} (h : t.hist = s.hist) : s.Extends t := ⟨[], by simp [h]⟩

/-- An extension stays one under every update that leaves the history alone. -/
theorem State.Extends.congr {s t u : State} (h : s.Extends t) (hu : u.hist = t.hist) : s.Extends u := by
  simpa only [State.Extends, hu] using h

theorem State.Extends.record {s t : State} {e : Event} (h : s.Extends t) (he : e.neverCalled = false) :
    s.Extends (t.record e) := by
  obtain ⟨es, hes, hall⟩ := h
  refine ⟨es ++ [e], by simp [hes], fun x hx => ?_⟩
  rcases List.mem_append.mp hx with hx | hx
  · exact hall x hx
  · rw [List.mem_singleton.mp hx, he]

theorem extends_keptByOps (s : State) (a : Nat) : KeptByOps a s.Extends where
  record _ _ he h := h.record he
  answered _ h := h.congr (by simp)
  setLink _ _ h := h.congr rfl
  takeLock _ _ h := h.congr rfl
  unlock _ h := h.congr (by simp)
  setSigPh _ _ h := h.congr rfl
  setSigRd _ _ h := h.congr rfl
  setWd _ _ h := h.congr rfl
  setPdActive _ _ h := h.congr rfl
  setPhyOn _ _ h := h.congr rfl
  setIrqEnabled _ _ h := h.congr rfl
  memWrite _ _ _ h := h.congr rfl
  modifyCaller _ _ h := h.congr (by simp)

theorem irqStep_extends (s : State) (f : IrqAgent) : (irqStep f s).Leaves s.Extends := by
  have hs : s.Extends s := .of_hist_eq rfl
  have hans : s.Extends s.answered := .of_hist_eq (by simp)
  have hpend : ∀ p, (Event.readInterruptPending p).neverCalled = false := fun _ => rfl
  have hwake : ∀ ts, (Event.vsyncWake ts).neverCalled = false := fun _ => rfl
  cases hl : f.label with
  | h2 | h6 | h7a | h8 => simp [irqStep, hl, hs, hs.record, hans.record, hpend, hwake, apply_ite s.Extends]
  | idle | h1 | h3 | h4 | h5 | h7 | h9 =>
    have hkept : (irqStep f s).Leaves fun t => t.hist = s.hist := by simp [irqStep, hl, apply_ite]
    exact hkept.mono fun _ ht => .of_hist_eq ht

theorem wdtStep_extends (s : State) : (wdtStep s).Leaves s.Extends := by
  have hask : ∀ b, s.Extends ((s.setWd { s.wd with armed := false }).answered.record (.headerFifoEmpty b)) := fun b =>
    State.Extends.record (.of_hist_eq (by simp)) rfl
  simp [wdtStep, hask, (hask _).record]

theorem runTurn_extends {turn : Turn} {s t : State} (ht : runTurn turn s = .next t) : s.Extends t := by
  have hs : s.Extends s := .of_hist_eq rfl
  cases turn with
  | caller a more => exact callerTurn_keeps (extends_keptByOps s a) hs (.of_hist_eq rfl) ht
  | irq => exact irqTurn_keeps hs (irqStep_extends s s.irq) (fun _ _ h => h.congr rfl) ht
  | wdt => exact wdtTurn_keeps hs (wdtStep_extends s) (fun _ _ h => h.congr rfl) ht
  | tick | hostStore addr v => cases ht; exact .of_hist_eq rfl
  | request a r =>
    rcases presentRequest_next ht with rfl | rfl
    · exact hs
    · exact .of_hist_eq (by simp)

/-- Settles O18: every turn extends the history, and taking the turn from the schedule leaves it alone. -/
theorem historyOnlyGrows : Obligations.HistoryOnlyGrows := by
  intro s t ht
  simpa [State.Extends] using runTurn_extends (step_next ht)

/-! ## What no turn but a caller agent's writes -/

/-- `t` has the link state and the lock of `s`. -/
def State.SameLinkAndLock (s t : State) : Prop := t.link = s.link ∧ t.lock = s.lock

/-- The link state and the lock are written by caller agents alone (rules R26, R71, R302). -/
theorem runTurn_sameLinkAndLock {turn : Turn} {s t : State} (hturn : ∀ a more, turn ≠ .caller a more)
    (ht : runTurn turn s = .next t) : s.SameLinkAndLock t := by
  have hs : s.SameLinkAndLock s := ⟨rfl, rfl⟩
  cases turn with
  | caller a more => exact absurd rfl (hturn a more)
  | irq =>
    refine irqTurn_keeps hs ?_ (fun _ _ h => h) ht
    cases hl : s.irq.label <;> simp [irqStep, hl, State.SameLinkAndLock, apply_ite]
  | wdt => exact wdtTurn_keeps hs (by simp [wdtStep, State.SameLinkAndLock]) (fun _ _ h => h) ht
  | tick | hostStore addr v => cases ht; exact hs
  | request a r => rcases presentRequest_next ht with rfl | rfl <;> simp [State.SameLinkAndLock]

/-- A step is the turn of a caller agent, or it leaves the link state and the lock alone. -/
theorem step_caller_or_same {s t : State} (ht : step s = .next t) :
    (∃ a more, s.nextTurn = .caller a more ∧ callerTurn a more s.turnTaken = .next t) ∨ s.SameLinkAndLock t := by
  have hrun := step_next ht
  by_cases hcaller : ∃ a more, s.nextTurn = .caller a more
  · obtain ⟨a, more, hturn⟩ := hcaller
    rw [hturn] at hrun
    exact .inl ⟨a, more, hturn, hrun⟩
  · have hsame := runTurn_sameLinkAndLock (fun a more h => hcaller ⟨a, more, h⟩) hrun
    exact .inr (by simpa [State.SameLinkAndLock] using hsame)

/-! ## The command lock (rules R29, R71) -/

/-- No operation of agent `a` changes a lock that another agent holds: `lock()` waits, and `unlock()` is the holder's. -/
theorem heldBy_keptByOps {a b : Nat} (hab : a ≠ b) : KeptByOps a fun t => t.lock = .held b where
  record _ _ _ h := h
  answered _ h := by simpa using h
  setLink _ _ h := h
  takeLock s hfree h := by simp [hfree] at h
  unlock s h := by simp [State.unlock, h, hab.symm]
  setSigPh _ _ h := h
  setSigRd _ _ h := h
  setWd _ _ h := h
  setPdActive _ _ h := h
  setPhyOn _ _ h := h
  setIrqEnabled _ _ h := h
  memWrite _ _ _ h := h
  modifyCaller _ _ h := by simpa using h

/-- Settles O23: a turn of another caller agent keeps a held lock, and no other turn writes the lock. -/
theorem onlyTheHolderReleasesTheLock : Obligations.OnlyTheHolderReleasesTheLock := by
  intro s t b hb hturn ht
  rcases step_caller_or_same ht with ⟨a, more, ha, hrun⟩ | ⟨-, hsame⟩
  · have hab : a ≠ b := by
      rintro rfl
      exact hturn more ha
    have hb' : s.turnTaken.lock = .held b := by simpa using hb
    exact callerTurn_keeps (heldBy_keptByOps hab) hb' hb' hrun
  · rw [hsame, hb]

/-! ## Time and the under-run counter (rules R33, R38) -/

/-- `t` has the time and the under-run counter of `s`. -/
def State.SameCounts (s t : State) : Prop := t.now = s.now ∧ t.underrun = s.underrun

theorem sameCounts_keptByOps (s : State) (a : Nat) : KeptByOps a s.SameCounts := by
  constructor <;> simp [State.SameCounts]

/-- The handler counts at most one under-run in a micro-step and leaves the time alone (rule R268). -/
theorem irqTurn_counts {s t : State} (ht : irqTurn s = .next t) :
    t.now = s.now ∧ (t.underrun = s.underrun ∨ t.underrun = s.underrun + 1) := by
  refine irqTurn_keeps (P := fun u => u.now = s.now ∧ (u.underrun = s.underrun ∨ u.underrun = s.underrun + 1))
    ⟨rfl, .inl rfl⟩ ?_ (fun _ _ h => h) ht
  cases hl : s.irq.label with
  | h7 => by_cases hbit : pendingBit s.irq.p 4 = true <;> simp [irqStep, hl, hbit]
  | _ => simp [irqStep, hl, apply_ite]

/-- Settles O22: `tick` alone moves time, the handler alone counts, and every other turn leaves both. -/
theorem timeAndUnderrunCounter : Obligations.TimeAndUnderrunCounter := by
  intro s t ht
  have hrun := step_next ht
  have hsame : s.turnTaken.SameCounts t → (t.now = s.now ∧ t.underrun = s.underrun) := by simp [State.SameCounts]
  cases hturn : s.nextTurn <;> rw [hturn] at hrun
  case caller a more =>
    have := hsame (callerTurn_keeps (sameCounts_keptByOps _ a) ⟨rfl, rfl⟩ ⟨rfl, rfl⟩ hrun)
    exact ⟨.inl this.1, .inl this.2⟩
  case irq =>
    obtain ⟨hnow, hcount⟩ := irqTurn_counts hrun
    exact ⟨.inl (by simpa using hnow), by simpa using hcount⟩
  case wdt =>
    have := hsame (wdtTurn_keeps ⟨rfl, rfl⟩ (by simp [wdtStep, State.SameCounts]) (fun _ _ h => h) hrun)
    exact ⟨.inl this.1, .inl this.2⟩
  case tick => cases hrun; simp
  case request a r => rcases presentRequest_next hrun with rfl | rfl <;> simp
  case hostStore addr v => cases hrun; simp

/-! ## The frame of every operation -/

/-- `t` is `s` as far as no operation of agent `a` may write. -/
def State.SameOutside (a : Nat) (s t : State) : Prop :=
  (∀ b, b ≠ a → t.callers[b]? = s.callers[b]?) ∧
    t.irq = s.irq ∧ t.wdt = s.wdt ∧ t.now = s.now ∧ t.underrun = s.underrun ∧ t.irqBusy = s.irqBusy ∧
    t.cfg = s.cfg ∧ t.linkIndex = s.linkIndex ∧ t.par = s.par ∧ t.fault = s.fault ∧
    t.turns = s.turns ∧ t.turnDraws = s.turnDraws ∧ t.cur = s.cur ∧ t.quantum = s.quantum

theorem sameOutside_keptByOps (s : State) (a : Nat) : KeptByOps a (s.SameOutside a) := by
  constructor
  case modifyCaller =>
    intro t f ⟨hothers, hrest⟩
    exact ⟨fun b hb => by rw [modifyCaller_callers_ne _ hb, hothers b hb], by simpa using hrest⟩
  all_goals simp +contextual [State.SameOutside]

/-- Settles O24: each elementary update of an operation stays inside its own agent and the shared record. -/
theorem everyOperationFrame : Obligations.EveryOperationFrame := by
  intro i s t ht
  exact exec_keeps (sameOutside_keptByOps s s.cur) rfl (by simp [State.SameOutside]) ht

end Sys2Proof.Machine
end

section
/-! PROOFS. Every operation as micro-steps of the frame in flight, and who writes the link state (O20, O21). -/

namespace Sys2Proof.Machine

/-! ## Operations as frames

`exec` runs each operation on latches of its own type. Wrapped in `Frame` they have one micro-step function, and `exec_next`
says once what the turn of an operation can be. -/

/-- A micro-step whose latches are wrapped. -/
def Micro.map {F G : Type} (wrap : F → G) : Micro F → Micro G
  | .blocked => .blocked
  | .fault r => .fault r
  | .cont f s => .cont (wrap f) s
  | .ret r s => .ret r s

@[simp] theorem Micro.leaves_map {F G : Type} (wrap : F → G) (P : State → Prop) (m : Micro F) :
    (m.map wrap).Leaves P ↔ m.Leaves P := by cases m <;> rfl

/-- One micro-step of an operation in flight of agent `a`. -/
def frameStep (a : Nat) (fr : Frame) (s : State) : Micro Frame :=
  match fr with
  | .enable f => (bringUp .on a f s).map .enable
  | .disable f => (tearDown .off a f s).map .disable
  | .enterLp f => (enterLpStep a f s).map .enterLp
  | .exitLp f => (exitLpStep a f s).map .exitLp
  | .doze f => (bringUp .doze a f s).map .doze
  | .dozeSuspend f => (tearDown .dozeSuspend a f s).map .dozeSuspend
  | .write f => (writeStep a f s).map .write
  | .read f => (readStep a f s).map .read

/-- The frame with which a request is accepted; none where it is answered at acceptance (rules R22, R93, R157). -/
def startFrame (p : Params) : Instr → Option Frame
  | .enable => some (.enable .start)
  | .disable => some (.disable .start)
  | .enterLp => some (.enterLp .start)
  | .exitLp => some (.exitLp .start)
  | .doze => if p.hasDoze then some (.doze .start) else none
  | .dozeSuspend => if p.hasDoze then some (.dozeSuspend .start) else none
  | .write ty d0 d1 len buf => some (.write (.start ty d0 d1 len buf))
  | .read ty addr maxLen cap buf => some (.read (.start ty addr maxLen cap buf))
  | .reserved6 .. | .reserved7 .. | .reservedA .. | .reservedB .. | .reservedC .. | .reservedD .. | .reservedE ..
  | .reservedF .. => none

/-- A burst of an operation is the burst of its frame. -/
theorem burst_eq_frames {F : Type} {a : Nat} {wrap : F → Frame} {micro : Nat → F → State → Micro F}
    (hstep : ∀ f u, frameStep a (wrap f) u = (micro a f u).map wrap) (n : Nat) (f : F) (s : State) :
    burst a wrap micro n f s = burst a id frameStep n (wrap f) s := by
  induction n generalizing f s with
  | zero => rfl
  | succ n ih =>
    rw [burst_succ, burst_succ, hstep]
    cases micro a f s with
    | blocked | fault | ret => rfl
    | cont f' s' => exact ih f' s'

/-- Saving the frame that has just been accepted changes nothing. -/
theorem saveTop_accept (s : State) (a : Nat) (fr : Frame) : (s.accept a fr).saveTop a fr = s.accept a fr := by
  cases hc : s.callers[a]? with
  | none => simp [State.accept, State.saveTop, State.modifyCaller, hc]
  | some c =>
    obtain ⟨ha, -⟩ := List.getElem?_eq_some_iff.mp hc
    simp [State.accept, State.saveTop, State.modifyCaller, State.setCallers, ha]

/-- What a turn given to an operation does, if it leads to `t`; `start` is the frame with which the operation is accepted. -/
inductive State.CarriesOut (start : Option Frame) (s t : State) : Prop where
  | noAgent (hc : s.callers[s.cur]? = none) (ht : t = s)
  | answers (c : Caller) (hc : s.callers[s.cur]? = some c) (hacc : c.accepts = true) (hstart : start = none)
      (ht : t = s.answerAtOnce s.cur .unsupported)
  | accepts (c : Caller) (fr : Frame) (hc : s.callers[s.cur]? = some c) (hacc : c.accepts = true)
      (hstart : start = some fr) (ht : burst s.cur id frameStep s.quantum fr (s.accept s.cur fr) = .next t)
  | goesOn (c : Caller) (fr : Frame) (rest : List Frame) (hc : s.callers[s.cur]? = some c) (hacc : c.accepts = false)
      (hstack : c.stack = fr :: rest) (ht : burst s.cur id frameStep (s.quantum + 1) fr s = .next t)

theorem conduct_next {F : Type} {refusal : Option Refusal} {start : Option F} {view : Frame → Option F}
    {wrap : F → Frame} {micro : Nat → F → State → Micro F} {s t : State}
    (hview : ∀ fr f, view fr = some f → fr = wrap f)
    (hstep : ∀ f u, frameStep s.cur (wrap f) u = (micro s.cur f u).map wrap)
    (ht : conduct refusal start view wrap micro s = .next t) : s.CarriesOut (start.map wrap) t := by
  rcases conduct_cases ht with
    ⟨hc, hs⟩ | ⟨c, hc, hacc, ⟨r, -, hr⟩ | ⟨-, hadmit⟩⟩ | ⟨c, hc, hacc, ⟨-, hr⟩ | ⟨f, hf, hb⟩⟩
  · cases hs; exact .noAgent hc rfl
  · cases hr
  · cases start with
    | none => rw [admitThen_none] at hadmit; cases hadmit; exact .answers c hc hacc rfl rfl
    | some f =>
      refine .accepts c (wrap f) hc hacc rfl ?_
      cases hq : s.quantum with
      | zero =>
        rw [hq, admitThen_zero] at hadmit
        rw [burst_zero, id_eq, saveTop_accept]
        exact hadmit
      | succ n => rwa [hq, admitThen_some, burst_eq_frames hstep] at hadmit
  · cases hr
  · obtain ⟨fr, hhead, hfr⟩ := Option.bind_eq_some_iff.mp hf
    obtain ⟨rest, hstack⟩ := List.head?_eq_some_iff.mp hhead
    rw [hview fr f hfr] at hstack
    rw [burst_eq_frames hstep] at hb
    exact .goesOn c (wrap f) rest hc hacc hstack hb

theorem answerUnsupported_next {s t : State} (ht : answerUnsupported s = .next t) : s.CarriesOut none t := by
  unfold answerUnsupported at ht
  split at ht
  case h_1 hc => cases ht; exact .noAgent hc rfl
  case h_2 c hc =>
    split at ht <;> cases ht
    case isTrue hacc => exact .answers c hc hacc rfl rfl

/-- Every operation is carried out on its frame. -/
theorem exec_next {i : Instr} {s t : State} (ht : exec i s = .next t) : s.CarriesOut (startFrame s.par i) t := by
  cases i with
  | enable =>
    exact conduct_next (fun fr f h => by cases fr <;> simp_all [Frame.asEnable]) (fun _ _ => rfl)
      (show execEnable s = _ from ht)
  | disable =>
    exact conduct_next (fun fr f h => by cases fr <;> simp_all [Frame.asDisable]) (fun _ _ => rfl)
      (show execDisable s = _ from ht)
  | enterLp =>
    exact conduct_next (fun fr f h => by cases fr <;> simp_all [Frame.asEnterLp]) (fun _ _ => rfl)
      (show execEnterLp s = _ from ht)
  | exitLp =>
    exact conduct_next (fun fr f h => by cases fr <;> simp_all [Frame.asExitLp]) (fun _ _ => rfl)
      (show execExitLp s = _ from ht)
  | doze =>
    have h := conduct_next (fun fr f h => by cases fr <;> simp_all [Frame.asDoze]) (fun _ _ => rfl)
      (show execDoze s = _ from ht)
    rw [apply_ite (Option.map Frame.doze)] at h
    exact h
  | dozeSuspend =>
    have h := conduct_next (fun fr f h => by cases fr <;> simp_all [Frame.asDozeSuspend]) (fun _ _ => rfl)
      (show execDozeSuspend s = _ from ht)
    rw [apply_ite (Option.map Frame.dozeSuspend)] at h
    exact h
  | write ty d0 d1 len buf =>
    exact conduct_next (fun fr f h => by cases fr <;> simp_all [Frame.asWrite]) (fun _ _ => rfl)
      (show execWrite ty d0 d1 len buf s = _ from ht)
  | read ty addr maxLen cap buf =>
    exact conduct_next (fun fr f h => by cases fr <;> simp_all [Frame.asRead]) (fun _ _ => rfl)
      (show execRead ty addr maxLen cap buf s = _ from ht)
  | reserved6 | reserved7 | reservedA | reservedB | reservedC | reservedD | reservedE | reservedF =>
    exact answerUnsupported_next ht

/-- A caller agent's turn leaves everything alone or is the turn of an operation. -/
theorem callerTurn_next {a more : Nat} {s t : State} (ht : callerTurn a more s = .next t) :
    t = s ∨ ∃ i, exec i (s.focus a more) = .next t := by
  unfold callerTurn at ht
  split at ht
  · cases ht; exact .inl rfl
  · split at ht
    · cases ht; exact .inl rfl
    · cases ht
    · exact .inr ⟨_, ht⟩

/-! ## Who writes the link state (rules R26, R28) -/

/-- The link state that the next micro-step of an operation writes, if it writes one (rules R135, R142, R145, R146, R149,
R155). -/
def Frame.linkWritten : Frame → Option LinkState
  | .enable f | .doze f => match f.ctl.label with
    | .bu4b | .bu26 => some f.target
    | _ => none
  | .disable f | .dozeSuspend f => match f.ctl.label with
    | .td3b | .td5 => some f.target
    | _ => none
  | .enterLp f => if f.ctl.label = .el4 then some .ulps else none
  | .exitLp f => if f.ctl.label = .xl18 then some .on else none
  | .write _ | .read _ => none

/-- `t` has the link state of `s`; or it has the one that `fr` writes, and the lock of `s`. -/
def Frame.LinkAfter (fr : Frame) (s t : State) : Prop :=
  t.link = s.link ∨ (fr.linkWritten = some t.link ∧ t.lock = s.lock)

/-- `t` has the link state and the power, PHY and line flags of `s`. -/
def State.SameLinkAndFlags (s t : State) : Prop :=
  t.link = s.link ∧ t.pdActive = s.pdActive ∧ t.phyOn = s.phyOn ∧ t.irqEnabled = s.irqEnabled

/-- No micro-step of WRITE writes the link state or a flag (rule R170). -/
theorem writeStep_sameLinkAndFlags (a : Nat) (f : WriteFrame) (s : State) :
    (writeStep a f s).Leaves s.SameLinkAndFlags := by
  cases hl : f.ctl.label with
  | w9 =>
    simp only [writeStep, hl]
    refine leaves_waitThen _ _ _ _ ?_ ?_ <;> rintro t (rfl | rfl) <;> simp [State.SameLinkAndFlags]
  | _ => simp [writeStep, hl, decideWait, State.SameLinkAndFlags, apply_ite]

theorem nestedWrite_sameLinkAndFlags (a : Nat) (f : ReadFrame) (g : WriteFrame) (l : RLabel) (s : State) :
    (nestedWrite a f g l s).Leaves s.SameLinkAndFlags := by
  unfold nestedWrite
  split
  · simp [State.SameLinkAndFlags]
  · rename_i w _
    have hw := writeStep_sameLinkAndFlags a w s
    split <;> simp_all

/-- No micro-step of READ writes the link state or a flag (rule R200). -/
theorem readStep_sameLinkAndFlags (a : Nat) (f : ReadFrame) (s : State) :
    (readStep a f s).Leaves s.SameLinkAndFlags := by
  cases hl : f.ctl.label with
  | r4 => simpa only [readStep, hl] using nestedWrite_sameLinkAndFlags a f _ _ s
  | r5 =>
    have hw := nestedWrite_sameLinkAndFlags a f (requestWrite f.ty f.d0) .r6 s
    simp only [readStep, hl]
    split <;> simp_all
  | r6 =>
    simp only [readStep, hl]
    refine leaves_waitThen _ _ _ _ ?_ ?_ <;> rintro t (rfl | rfl) <;> simp [State.SameLinkAndFlags]
  | _ => simp [readStep, hl, appendByte, State.SameLinkAndFlags]

/-- A micro-step writes the link state only where `Frame.linkWritten` says, and not the lock with it. -/
theorem frameStep_link (a : Nat) (fr : Frame) (s : State) : (frameStep a fr s).Leaves (fr.LinkAfter s) := by
  cases fr <;> simp only [frameStep, Micro.leaves_map]
  case enable f | doze f =>
    cases hl : f.ctl.label <;> simp [bringUp, hl, Frame.LinkAfter, Frame.linkWritten, apply_ite, State.actAsk]
  case disable f | dozeSuspend f =>
    cases hl : f.ctl.label <;>
      simp [tearDown, hl, powerOffIfOff, Frame.LinkAfter, Frame.linkWritten, apply_ite]
  case enterLp f =>
    cases hl : f.ctl.label <;> simp [enterLpStep, hl, Frame.LinkAfter, Frame.linkWritten, State.actAsk]
  case exitLp f =>
    cases hl : f.ctl.label <;> simp [exitLpStep, hl, Frame.LinkAfter, Frame.linkWritten, State.actAsk]
  case write f => exact (writeStep_sameLinkAndFlags a f s).mono fun _ h => .inl h.1
  case read f => exact (readStep_sameLinkAndFlags a f s).mono fun _ h => .inl h.1

/-- The link state is written inside the locked section (rule R26). -/
theorem Frame.locked_of_linkWritten {fr : Frame} {v : LinkState} (h : fr.linkWritten = some v) : fr.locked = true := by
  cases fr with
  | enable f | doze f | disable f | dozeSuspend f =>
    simp only [Frame.linkWritten] at h
    split at h <;> simp_all [Frame.locked]
  | enterLp f | exitLp f => simp_all [Frame.linkWritten, Frame.locked]
  | write | read => simp [Frame.linkWritten] at h

/-- An operation that has its own target does not write INIT (rule R28). -/
theorem Frame.linkWritten_ne_init {fr : Frame} (htarget : fr.targetSet) : fr.linkWritten ≠ some .init := by
  cases fr with
  | enable f | doze f | disable f | dozeSuspend f =>
    simp only [Frame.targetSet] at htarget
    simp only [Frame.linkWritten]
    split <;> simp_all
  | enterLp | exitLp | write | read => simp [Frame.linkWritten]

/-! ## The link state is written under the lock (rule R26) -/

/-- An operation inside its locked section is one of the lock's holder (rules R29, R72). -/
theorem State.lockAccounted.held {s : State} (h : s.lockAccounted) {a : Nat} {c : Caller} {fr : Frame}
    (hc : s.callers[a]? = some c) (hfr : fr ∈ c.stack) (hlocked : fr.locked = true) : s.lock = .held a := by
  by_contra hnot
  have hcount := h.1 a c hc
  have hpos : 0 < c.stack.countP Frame.locked := List.countP_pos_iff.mpr ⟨fr, hfr, hlocked⟩
  rw [if_neg hnot] at hcount
  omega

/-- A burst of one micro-step keeps what that micro-step leaves and the agent's record does not bear on. -/
theorem burst_one {F : Type} {a : Nat} {wrap : F → Frame} {micro : Nat → F → State → Micro F} {P : State → Prop} {f : F}
    {s t : State} (h : P s) (hmicro : (micro a f s).Leaves P) (hmod : ∀ u g, P u → P (u.modifyCaller a g))
    (ht : burst a wrap micro 1 f s = .next t) : P t := by
  rw [burst_succ] at ht
  cases hm : micro a f s with
  | blocked => rw [hm] at ht; cases ht; exact hmod _ _ h
  | fault r => rw [hm] at ht; cases ht
  | cont f' s' | ret r s' => rw [hm] at ht hmicro; cases ht; exact hmod _ _ hmicro

/-- In a turn of one micro-step an operation writes the link state only if it is in flight, and as `Frame.LinkAfter` says. -/
theorem exec_one_link {i : Instr} {s t : State} (hq : s.quantum = 0) (ht : exec i s = .next t)
    (hlink : t.link ≠ s.link) :
    ∃ c fr, s.callers[s.cur]? = some c ∧ fr ∈ c.stack ∧ fr.linkWritten = some t.link ∧ t.lock = s.lock := by
  rcases exec_next ht with ⟨-, ht⟩ | ⟨c, -, -, -, ht⟩ | ⟨c, fr, -, -, -, ht⟩ | ⟨c, fr, rest, hc, -, hstack, ht⟩
  · exact absurd (by rw [ht]) hlink
  · exact absurd (by simp [ht, State.answerAtOnce]) hlink
  · rw [hq, burst_zero] at ht
    cases ht
    exact absurd (by simp [State.saveTop, State.accept]) hlink
  · rw [hq] at ht
    have hafter : fr.LinkAfter s t :=
      burst_one (.inl rfl) (frameStep_link s.cur fr s) (fun u g hu => by simpa [Frame.LinkAfter] using hu) ht
    obtain ⟨hwritten, hlock⟩ := hafter.resolve_left hlink
    exact ⟨c, fr, hc, by simp [hstack], hwritten, hlock⟩

/-- Settles O20: the operation that writes the link state is inside its locked section, so by the invariant its agent holds
the lock. -/
theorem linkStateWrittenOnlyUnderLock : Obligations.LinkStateWrittenOnlyUnderLock := by
  rintro s t ⟨-, hlock, -, -⟩ hone ht hlink
  rcases step_caller_or_same ht with ⟨a, more, hturn, hrun⟩ | ⟨hsame, -⟩
  · obtain rfl := hone a more hturn
    rcases callerTurn_next hrun with rfl | ⟨i, hexec⟩
    · exact absurd (by simp) hlink
    · obtain ⟨c, fr, hc, hfr, hwritten, hkept⟩ := exec_one_link rfl hexec (by simpa using hlink)
      have hheld : s.lock = .held a := hlock.held (by simpa using hc) hfr (Frame.locked_of_linkWritten hwritten)
      exact ⟨a, hturn, hheld, by simpa [hheld] using hkept⟩
  · exact absurd hsame hlink

/-! ## No way back to INIT (rules R28, R320) -/

/-- An operation is accepted with its target unwritten. -/
theorem startFrame_targetSet {p : Params} {i : Instr} {fr : Frame} (h : startFrame p i = some fr) : fr.targetSet := by
  cases i <;> simp only [startFrame, Option.ite_none_right_eq_some, Option.some.injEq, reduceCtorEq] at h
  case doze | dozeSuspend => obtain ⟨-, rfl⟩ := h; exact fun hne => absurd rfl hne
  case enable | disable => cases h; exact fun hne => absurd rfl hne
  case enterLp | exitLp | write | read => cases h; trivial

/-! ### The latches a micro-step goes on with -/

/-- `R` holds of the latches and the state with which a micro-step goes on, if it does. -/
def Micro.GoesOn {F : Type} (R : F → State → Prop) : Micro F → Prop
  | .cont f s => R f s
  | .blocked | .fault _ | .ret .. => True

section
variable {F : Type} (R : F → State → Prop)

@[simp] theorem Micro.goesOn_blocked : (Micro.blocked : Micro F).GoesOn R := trivial
@[simp] theorem Micro.goesOn_fault (r : Fault) : (Micro.fault r : Micro F).GoesOn R := trivial
@[simp] theorem Micro.goesOn_cont (f : F) (s : State) : (Micro.cont f s).GoesOn R ↔ R f s := Iff.rfl
@[simp] theorem Micro.goesOn_ret (r : Result) (s : State) : (Micro.ret r s : Micro F).GoesOn R := trivial

@[simp] theorem Micro.goesOn_ite (c : Prop) [Decidable c] (m m' : Micro F) :
    (if c then m else m').GoesOn R ↔ (c → m.GoesOn R) ∧ (¬c → m'.GoesOn R) := by
  by_cases hc : c <;> simp [hc]

@[simp] theorem goesOn_regAsk {α : Type} (s : State) (read : Nat → α) (e : α → Event) (k : α → State → Micro F) :
    (regAsk s read e k).GoesOn R ↔
      (s.pdActive = true → (k (read s.answer) (s.answered.record (e (read s.answer)))).GoesOn R) := by simp [regAsk]

@[simp] theorem goesOn_lockThen (a : Nat) (s : State) (k : State → Micro F) :
    (lockThen a s k).GoesOn R ↔ (s.lock = .free → (k (s.setLock (.held a))).GoesOn R) := by simp [lockThen]

@[simp] theorem goesOn_irqLineDisableThen (s : State) (k : State → Micro F) :
    (irqLineDisableThen s k).GoesOn R ↔ (s.irqBusy = false → (k (s.act .irqLineDisable)).GoesOn R) := by
  simp [irqLineDisableThen]

@[simp] theorem Micro.goesOn_map {G : Type} (wrap : F → G) (S : G → State → Prop) (m : Micro F) :
    (m.map wrap).GoesOn S ↔ m.GoesOn fun f => S (wrap f) := by cases m <;> rfl

variable {R}

/-- A micro-step that goes on as `R` says goes on as whatever `R` implies. -/
theorem Micro.GoesOn.mono {S : F → State → Prop} {m : Micro F} (h : m.GoesOn R) (himp : ∀ f s, R f s → S f s) :
    m.GoesOn S := by
  cases m with
  | blocked | fault | ret => trivial
  | cont f s => exact himp f s h

theorem Micro.goesOn_of_forall {m : Micro F} (h : ∀ f s, R f s) : m.GoesOn R := by
  cases m with
  | blocked | fault | ret => trivial
  | cont f s => exact h f s

end

@[simp] theorem BuFrame.goto_target (f : BuFrame) (l : BuLabel) : (f.goto l).target = f.target := rfl
@[simp] theorem BuFrame.gotoInCallback_target (f : BuFrame) (l : BuLabel) : (f.gotoInCallback l).target = f.target := rfl
@[simp] theorem BuFrame.finish_target (f : BuFrame) (r : Result) (l : BuLabel) : (f.finish r l).target = f.target := rfl
@[simp] theorem TdFrame.goto_target (f : TdFrame) (l : TdLabel) : (f.goto l).target = f.target := rfl
@[simp] theorem TdFrame.gotoInCallback_target (f : TdFrame) (l : TdLabel) : (f.gotoInCallback l).target = f.target := rfl
@[simp] theorem TdFrame.finish_target (f : TdFrame) (r : Result) (l : TdLabel) : (f.finish r l).target = f.target := rfl

/-- `BU.0` writes the target, and every later micro-step of a bring-up keeps it (rules R130, R133). -/
theorem bringUp_target {goal : LinkState} {f : BuFrame} (htarget : f.ctl.label ≠ .bu0 → f.target = goal) (a : Nat)
    (s : State) : (bringUp goal a f s).GoesOn fun f' _ => f'.target = goal := by
  cases hl : f.ctl.label with
  | bu0 => simp [bringUp, hl]
  | _ => simp [bringUp, hl, htarget]

/-- `TD.0` writes the target, and every later micro-step of a teardown keeps it (rules R130, R144). -/
theorem tearDown_target {goal : LinkState} {f : TdFrame} (htarget : f.ctl.label ≠ .td0 → f.target = goal) (a : Nat)
    (s : State) : (tearDown goal a f s).GoesOn fun f' _ => f'.target = goal := by
  cases hl : f.ctl.label with
  | td0 => simp [tearDown, hl]
  | _ => simp [tearDown, hl, htarget, powerOffIfOff]

/-- Every micro-step keeps the operation's own target. -/
theorem frameStep_targetSet {fr : Frame} (htarget : fr.targetSet) (a : Nat) (s : State) :
    (frameStep a fr s).GoesOn fun fr' _ => fr'.targetSet := by
  cases fr <;> simp only [frameStep, Micro.goesOn_map]
  case enable f | doze f => exact (bringUp_target htarget a s).mono fun _ _ h _ => h
  case disable f | dozeSuspend f => exact (tearDown_target htarget a s).mono fun _ _ h _ => h
  case enterLp f | exitLp f | write f | read f => exact Micro.goesOn_of_forall fun _ _ => trivial

/-- A micro-step of an operation that has its own target does not lead to INIT. -/
theorem frameStep_link_ne_init {fr : Frame} (htarget : fr.targetSet) {a : Nat} {s : State} (h : s.link ≠ .init) :
    (frameStep a fr s).Leaves fun t => t.link ≠ .init := by
  refine (frameStep_link a fr s).mono fun t ht hinit => ?_
  rcases ht with hsame | ⟨hwritten, -⟩
  · exact h (hsame ▸ hinit)
  · exact Frame.linkWritten_ne_init htarget (hinit ▸ hwritten)

/-- The turn of an operation does not lead to INIT. -/
theorem exec_link_ne_init {i : Instr} {s t : State} (htargets : s.targetsSet) (h : s.link ≠ .init)
    (ht : exec i s = .next t) : t.link ≠ .init := by
  have hburst {n fr u} (hfr : fr.targetSet) (hu : u.link ≠ .init) (hb : burst s.cur id frameStep n fr u = .next t) :
      t.link ≠ .init := by
    refine burst_next (fun fr v => fr.targetSet ∧ v.link ≠ .init) (·.link ≠ .init) ?_ ?_ ?_ ⟨hfr, hu⟩ hb
    · intro fr v fr' v' ⟨hfr, hv⟩ hm
      have htarget := frameStep_targetSet hfr s.cur v
      have hlink := frameStep_link_ne_init hfr (a := s.cur) hv
      rw [hm] at htarget hlink
      exact ⟨htarget, hlink⟩
    · intro fr v ⟨_, hv⟩
      simpa [State.saveTop] using hv
    · intro fr v r v' ⟨hfr, hv⟩ hm
      have hlink := frameStep_link_ne_init hfr (a := s.cur) hv
      rw [hm] at hlink
      simpa [State.deliver] using hlink
  rcases exec_next ht with ⟨-, ht⟩ | ⟨c, -, -, -, ht⟩ | ⟨c, fr, -, -, hstart, ht⟩ | ⟨c, fr, rest, hc, -, hstack, ht⟩
  · exact ht ▸ h
  · simpa [ht, State.answerAtOnce] using h
  · exact hburst (startFrame_targetSet hstart) (by simpa [State.accept] using h) ht
  · exact hburst (htargets c (List.mem_of_getElem? hc) fr (by simp [hstack])) h ht

/-- Settles O21: no operation with its own target leads to INIT, and no other turn writes the link state. -/
theorem initIsNeverReentered : Obligations.InitIsNeverReentered := by
  intro s t htargets ht hinit
  rcases step_caller_or_same ht with ⟨a, more, -, hrun⟩ | ⟨hsame, -⟩
  · rcases callerTurn_next hrun with rfl | ⟨i, hexec⟩
    · simpa using hinit
    · have htargets' : (s.turnTaken.focus a more).targetsSet := by simpa [State.targetsSet] using htargets
      exact exec_link_ne_init htargets' (by simpa using hinit) hexec
  · rwa [hsame]

end Sys2Proof.Machine
end

section
/-! PROOFS. An operation that nothing interrupts, section by section, and the matrix of rule R28 (O34). -/

namespace Sys2Proof.Machine

/-! ## An `Idle` agent's turn -/

/-- One answer is taken from the list, or drawn (rule R64). -/
theorem State.answered_eq (s : State) : s.answered = { s with
    answers := s.answers.tail
    answerDraws := if s.answers = [] then s.answerDraws + 1 else s.answerDraws } := by
  cases hl : s.answers <;> simp [State.answered, State.setAnswers, hl]

/-- The caller agents once the `Idle` agent `c` that has the turn has accepted a request with the frame `fr`. -/
def State.acceptedCallers (s : State) (c : Caller) (fr : Frame) : List Caller :=
  s.callers.set s.cur { c with port := none, stack := [fr] }

section
variable {s : State} {c : Caller} (hidle : s.idleAs c)
include hidle

theorem accept_of_idle (fr : Frame) : s.accept s.cur fr = { s with callers := s.acceptedCallers c fr } := by
  obtain ⟨hc, hstack⟩ := hidle
  simp [State.accept, State.modifyCaller, hc, hstack, State.setCallers, State.acceptedCallers]

/-- An operation that has been accepted by an `Idle` agent and returns leaves the agent answered. -/
theorem deliver_of_accepted {u : State} {fr : Frame} (hu : u.callers = s.acceptedCallers c fr) (r : Result) :
    u.deliver s.cur r = { u with callers := s.answeredCallers c r } := by
  obtain ⟨hc, hstack⟩ := hidle
  obtain ⟨hlt, -⟩ := List.getElem?_eq_some_iff.mp hc
  simp [State.deliver, State.modifyCaller, State.setCallers, hu, State.acceptedCallers, State.answeredCallers, hlt, hstack]

/-- An `Idle` agent accepts the request and goes on with it for the rest of its turn. -/
theorem conduct_of_idle {F : Type} (f : F) (view : Frame → Option F) (wrap : F → Frame)
    (micro : Nat → F → State → Micro F) {n : Nat} (hn : s.quantum = n + 1) :
    conduct none (some f) view wrap micro s =
      burst s.cur wrap micro (n + 1) f { s with callers := s.acceptedCallers c (wrap f) } := by
  have hacc : c.accepts = true := by simp [Caller.accepts, hidle.2]
  simp only [conduct, hidle.1, hacc, if_true, hn, admitThen_some, accept_of_idle hidle]

end

/-! ## Sections of `bring_up` (rule R133)

Each says where a number of micro-steps in a row leads, from any state that meets its conditions. -/

section
variable (a : Nat) (wrap : BuFrame → Frame) (goal : LinkState) (n : Nat)

/-- `BU.0` to `BU.2`: the lock is taken and the state found is latched. -/
theorem bringUp_enters {s : State} (hfree : s.lock = .free) :
    burst a wrap (bringUp goal) (n + 3) .start s =
      burst a wrap (bringUp goal) n ⟨⟨.bu3, .ok⟩, goal, s.link, false, .ok, false⟩ { s with lock := .held a } := by
  simp only [burst_succ, BuFrame.start, BuFrame.goto, Ctl.goto, bringUp, lockThen_of_free a hfree]
  rfl

/-- `BU.3` at the target (rule R134). -/
theorem bringUp_at_target (r : Result) (h : Bool) (i : InitAnswer) (cb : Bool) (s : State) :
    burst a wrap (bringUp goal) (n + 1) ⟨⟨.bu3, r⟩, goal, goal, h, i, cb⟩ s =
      burst a wrap (bringUp goal) n ⟨⟨.bu27, .ok⟩, goal, goal, h, i, false⟩ s := by
  simp only [burst_succ, bringUp, if_true]
  rfl

/-- `BU.3` to `BU.4b` from the other ON-class state: the state collapses onto the target (rule R135). -/
theorem bringUp_collapses {prev : LinkState} (hne : prev ≠ goal) (hon : prev.onClass = true) (r : Result) (h : Bool)
    (i : InitAnswer) (cb : Bool) (s : State) :
    burst a wrap (bringUp goal) (n + 4) ⟨⟨.bu3, r⟩, goal, prev, h, i, cb⟩ s =
      burst a wrap (bringUp goal) n ⟨⟨.bu27, .ok⟩, goal, prev, h, i, false⟩
        { s with link := goal, wd := if prev = .on then s.disarmedWd else s.wd } := by
  simp only [burst_succ, bringUp, if_neg hne, BuFrame.goto, Ctl.goto, hon, if_true]
  split <;> rfl

/-- `BU.3` to `BU.7` from outside the ON class: power and PHY (rule R136). -/
theorem bringUp_powers {prev : LinkState} (hne : prev ≠ goal) (hoff : prev.onClass = false) (r : Result) (h : Bool)
    (i : InitAnswer) (cb : Bool) (s : State) :
    burst a wrap (bringUp goal) (n + 5) ⟨⟨.bu3, r⟩, goal, prev, h, i, cb⟩ s =
      burst a wrap (bringUp goal) n ⟨⟨.bu8, r⟩, goal, prev, h, i, false⟩
        { s with pdActive := true, phyOn := true, hist := s.hist ++ preambleEvents } := by
  simp only [burst_succ, bringUp, if_neg hne, BuFrame.goto, Ctl.goto, hoff]
  simp [State.act, State.record, Action.effect, State.setPdActive, State.setPhyOn, preambleEvents]

/-- `BU.8` and `BU.9` from INIT: the PLL is asked, and a stable one is handed off (rule R137). -/
theorem bringUp_asks_pll {s : State} (hpd : s.pdActive = true) {b : Bool} (hb : asBool s.answer = b) (r : Result)
    (h : Bool) (i : InitAnswer) (cb : Bool) :
    burst a wrap (bringUp goal) (n + 2) ⟨⟨.bu8, r⟩, goal, .init, h, i, cb⟩ s =
      burst a wrap (bringUp goal) n ⟨⟨if b then .bu24 else .bu10, r⟩, goal, .init, b, i, false⟩
        { s.answered with hist := s.hist ++ [.pllStable b] } := by
  simp only [burst_succ, bringUp, if_true, regAsk_of_power hpd]
  simp [BuFrame.goto, Ctl.goto, State.record, hb]

/-- `BU.8` and `BU.9` from an OFF-class state: no handoff. -/
theorem bringUp_no_handoff {prev : LinkState} (hinit : prev ≠ .init) (r : Result) (h : Bool) (i : InitAnswer) (cb : Bool)
    (s : State) :
    burst a wrap (bringUp goal) (n + 2) ⟨⟨.bu8, r⟩, goal, prev, h, i, cb⟩ s =
      burst a wrap (bringUp goal) n ⟨⟨.bu10, r⟩, goal, prev, false, i, false⟩ s := by
  simp only [burst_succ, bringUp, if_neg hinit]
  rfl

/-- `BU.10` to `BU.20`: the full sequence, and the panel reset after success (rules R138, R140). -/
theorem bringUp_programs (prev : LinkState) (r : Result) (h : Bool) (i : InitAnswer) (cb : Bool) (s : State) :
    burst a wrap (bringUp goal) (n + 11) ⟨⟨.bu10, r⟩, goal, prev, h, i, cb⟩ s =
      burst a wrap (bringUp goal) n
        ⟨⟨.bu24, r⟩, goal, prev, h, asInit s.answer, decide (asInit s.answer = .ok)⟩
        { s.answered with hist := s.hist ++ bringUpEvents s.cfg (asInit s.answer) } := by
  simp only [burst_succ, bringUp, BuFrame.goto, BuFrame.gotoInCallback, Ctl.goto, State.actAsk, State.answered_eq]
  cases hans : asInit s.answer <;> rw [State.answer] at hans <;>
    simp [State.act, State.record, Action.effect, bringUpEvents, State.answer, hans]

/-- `BU.24` to `BU.26`: the link starts, the line is enabled, the target is reached (rules R141, R142). -/
theorem bringUp_starts (prev : LinkState) (r : Result) (h : Bool) (i : InitAnswer) (cb : Bool) (s : State) :
    burst a wrap (bringUp goal) (n + 3) ⟨⟨.bu24, r⟩, goal, prev, h, i, cb⟩ s =
      burst a wrap (bringUp goal) n ⟨⟨.bu27, .ok⟩, goal, prev, h, i, false⟩
        { s with irqEnabled := true, link := goal, hist := s.hist ++ startEvents } := by
  simp only [burst_succ, bringUp]
  simp [BuFrame.goto, BuFrame.finish, Ctl.goto, Ctl.finish, State.act, State.record, Action.effect, State.setIrqEnabled,
    State.setLink, startEvents]

/-- `BU.27` to `BU.29`: the lock is released, the wake callback invoked (rule R143), the result returned. -/
theorem bringUp_leaves {s : State} (hheld : s.lock = .held a) (prev : LinkState) (r : Result) (h : Bool)
    (i : InitAnswer) (cb : Bool) :
    burst a wrap (bringUp goal) (n + 3) ⟨⟨.bu27, r⟩, goal, prev, h, i, cb⟩ s =
      .next (State.deliver
        { s with
          lock := .free
          hist := s.hist ++
            if prev ≠ goal ∧ prev ≠ .init then [.panel (wakeCallback s.par goal)] else [] } a r) := by
  by_cases hwake : prev ≠ goal ∧ prev ≠ .init
  · simp only [burst_succ, bringUp, unlock_of_holder hheld, BuFrame.goto, BuFrame.gotoInCallback, Ctl.goto, if_pos hwake]
    rfl
  · simp only [burst_succ, bringUp, unlock_of_holder hheld, BuFrame.goto, Ctl.goto, if_neg hwake, List.append_nil]
    rfl

end

/-- A bring-up by an `Idle` agent that finds the lock free, with nothing in between (rules R133 to
R143). -/
theorem bringUp_completes (goal : LinkState) {s : State} {c : Caller} (hidle : s.idleAs c)
    (hfree : s.lock = .free) (hq : 30 ≤ s.quantum) (view : Frame → Option BuFrame) (wrap : BuFrame → Frame) :
    conduct none (some .start) view wrap (bringUp goal) s = .next (afterBringUp goal s c) := by
  obtain ⟨n, hn⟩ : ∃ n, s.quantum = n + 29 + 1 := ⟨s.quantum - 30, by omega⟩
  rw [conduct_of_idle hidle _ _ _ _ hn, bringUp_enters _ _ _ _ (by exact hfree)]
  by_cases hat : s.link = goal
  · rw [hat, bringUp_at_target, bringUp_leaves _ _ _ _ rfl, deliver_of_accepted hidle rfl]
    simp [afterBringUp, hat, hfree]
  cases hon : s.link.onClass with
  | true =>
    have hinit : s.link ≠ .init := fun h => by simp [h, LinkState.onClass] at hon
    rw [bringUp_collapses _ _ _ _ hat hon, bringUp_leaves _ _ _ _ rfl, deliver_of_accepted hidle rfl]
    simp [afterBringUp, hat, hon, hinit, hfree, State.disarmedWd]
  | false =>
    rw [bringUp_powers _ _ _ _ hat hon]
    by_cases hinit : s.link = .init
    · have hne : LinkState.init ≠ goal := hinit ▸ hat
      cases hpll : asBool s.answer with
      | true =>
        rw [hinit, bringUp_asks_pll _ _ _ _ rfl (by exact hpll), if_pos rfl, bringUp_starts, State.answered_eq,
          bringUp_leaves _ _ _ _ rfl, deliver_of_accepted hidle rfl]
        simp [afterBringUp, hinit, hne, hpll, LinkState.onClass, hfree, State.answered_eq]
      | false =>
        rw [hinit, bringUp_asks_pll _ _ _ _ rfl (by exact hpll), if_neg Bool.false_ne_true, bringUp_programs,
          bringUp_starts]
        simp only [State.answered_eq]
        rw [bringUp_leaves _ _ _ _ rfl, deliver_of_accepted hidle rfl]
        rw [State.answer] at hpll
        simp [afterBringUp, hinit, hne, hpll, LinkState.onClass, hfree, State.answered_eq, State.answer]
    · rw [bringUp_no_handoff _ _ _ _ hinit, bringUp_programs, bringUp_starts, State.answered_eq,
        bringUp_leaves _ _ _ _ rfl, deliver_of_accepted hidle rfl]
      simp [afterBringUp, hat, hon, hinit, hfree, State.answered_eq, State.answer]

/-! ## Sections of `tear_down` (rule R144) -/

section
variable (a : Nat) (wrap : TdFrame → Frame) (goal : LinkState) (n : Nat)

/-- `TD.0` to `TD.2`: the lock is taken and the state found is latched. -/
theorem tearDown_enters {s : State} (hfree : s.lock = .free) :
    burst a wrap (tearDown goal) (n + 3) .start s =
      burst a wrap (tearDown goal) n ⟨⟨.td3, .ok⟩, goal, s.link, false⟩ { s with lock := .held a } := by
  simp only [burst_succ, TdFrame.start, TdFrame.goto, Ctl.goto, tearDown, lockThen_of_free a hfree]
  rfl

/-- `TD.3b`: a write that is made only where it changes the link state is that write. -/
theorem setLink_where_it_differs {s : State} {prev : LinkState} (hprev : prev = s.link) :
    (if prev ≠ goal then s.setLink goal else s) = s.setLink goal := by
  by_cases hat : prev = goal
  · rw [if_neg (not_not.mpr hat), ← hat, hprev]
    rfl
  · rw [if_pos hat]

/-- `TD.3` to `TD.3c` from an OFF-class state (rule R145). -/
theorem tearDown_stays_off {s : State} {prev : LinkState} (hprev : prev = s.link) (hoff : prev.offClass = true)
    (r : Result) (cb : Bool) :
    burst a wrap (tearDown goal) (n + 4) ⟨⟨.td3, r⟩, goal, prev, cb⟩ s =
      burst a wrap (tearDown goal) n ⟨⟨.td11, .ok⟩, goal, prev, false⟩
        { s with link := goal, hist := s.hist ++ if goal = .off then [.panel .powerOff] else [] } := by
  by_cases hgoal : goal = .off
  · simp only [burst_succ, tearDown, powerOffIfOff, TdFrame.goto, TdFrame.gotoInCallback, TdFrame.finish, Ctl.goto,
      Ctl.finish, hoff, if_true, if_pos hgoal]
    rw [setLink_where_it_differs _ (by exact hprev)]
    rfl
  · simp only [burst_succ, tearDown, powerOffIfOff, TdFrame.goto, TdFrame.finish, Ctl.goto, Ctl.finish, hoff, if_true,
      if_neg hgoal, List.append_nil]
    rw [setLink_where_it_differs _ hprev]
    rfl

/-- `TD.3` to `TD.10` from outside the OFF class, while no handler run is in progress (rule R146). -/
theorem tearDown_shuts_down {s : State} {prev : LinkState} (hon : prev.offClass = false) (hbusy : s.irqBusy = false)
    (r : Result) (cb : Bool) :
    burst a wrap (tearDown goal) (n + 8) ⟨⟨.td3, r⟩, goal, prev, cb⟩ s =
      burst a wrap (tearDown goal) n ⟨⟨.td11, .ok⟩, goal, prev, false⟩
        { s with
          link := goal, wd := s.disarmedWd, pdActive := false, phyOn := false, irqEnabled := false
          hist := s.hist ++ tearDownEvents goal } := by
  by_cases hgoal : goal = .off <;>
    simp [burst_succ, tearDown, powerOffIfOff, irqLineDisableThen, TdFrame.goto, TdFrame.gotoInCallback, TdFrame.finish,
      Ctl.goto, Ctl.finish, State.act, State.record, Action.effect, State.setWd, State.setLink, State.setIrqEnabled,
      State.setPhyOn, State.setPdActive, State.disarmedWd, tearDownEvents, hon, hgoal, hbusy]

/-- `TD.11` and `TD.12`: the lock is released and the result returned. -/
theorem tearDown_leaves {s : State} (hheld : s.lock = .held a) (prev : LinkState) (r : Result) (cb : Bool) :
    burst a wrap (tearDown goal) (n + 2) ⟨⟨.td11, r⟩, goal, prev, cb⟩ s =
      .next (State.deliver { s with lock := .free } a r) := by
  simp only [burst_succ, tearDown, unlock_of_holder hheld]
  rfl

end

/-- A teardown by an `Idle` agent that finds the lock free and no handler run in progress, with nothing in between (rules
R144 to R146). -/
theorem tearDown_completes (goal : LinkState) {s : State} {c : Caller} (hidle : s.idleAs c) (hfree : s.lock = .free)
    (hbusy : s.irqBusy = false) (hq : 30 ≤ s.quantum) (view : Frame → Option TdFrame) (wrap : TdFrame → Frame) :
    conduct none (some .start) view wrap (tearDown goal) s = .next (afterTearDown goal s c) := by
  obtain ⟨n, hn⟩ : ∃ n, s.quantum = n + 29 + 1 := ⟨s.quantum - 30, by omega⟩
  rw [conduct_of_idle hidle _ _ _ _ hn, tearDown_enters _ _ _ _ (by exact hfree)]
  cases hoff : s.link.offClass with
  | true =>
    rw [tearDown_stays_off _ _ _ _ (by exact rfl) hoff, tearDown_leaves _ _ _ _ rfl, deliver_of_accepted hidle rfl]
    simp [afterTearDown, hoff, hfree]
  | false =>
    rw [tearDown_shuts_down _ _ _ _ hoff (by exact hbusy), tearDown_leaves _ _ _ _ rfl, deliver_of_accepted hidle rfl]
    simp [afterTearDown, hoff, hfree, State.disarmedWd]

/-! ## Sections of ENTER_LP and EXIT_LP (rules R149, R153) -/

section
variable (a : Nat) (n : Nat)

/-- `EL.1` and `EL.2` in ON: the lock is taken. -/
theorem enterLp_enters {s : State} (hfree : s.lock = .free) (hlink : s.link = .on) :
    burst a .enterLp enterLpStep (n + 2) .start s =
      burst a .enterLp enterLpStep n ⟨⟨.el3, .ok⟩, .ok⟩ { s with lock := .held a } := by
  simp only [burst_succ, ElFrame.start, ElFrame.goto, Ctl.goto, enterLpStep, lockThen_of_free a hfree]
  simp [State.setLock, hlink]

/-- `EL.1` and `EL.2` outside ON: `InvalidState` is raised (rule R152). -/
theorem enterLp_rejects {s : State} (hfree : s.lock = .free) (hlink : s.link ≠ .on) :
    burst a .enterLp enterLpStep (n + 2) .start s =
      burst a .enterLp enterLpStep n ⟨⟨.el10, .invalidState⟩, .ok⟩ { s with lock := .held a } := by
  simp only [burst_succ, ElFrame.start, ElFrame.goto, Ctl.goto, enterLpStep, lockThen_of_free a hfree]
  simp [State.setLock, hlink, Ctl.raise, Ctl.finish]

/-- `EL.3` to `EL.9` with power and no handler run in progress (rules R149 to R151). -/
theorem enterLp_retains {s : State} (hpd : s.pdActive = true) (hbusy : s.irqBusy = false) (r : Result) (q : RetAnswer) :
    burst a .enterLp enterLpStep (n + 8) ⟨⟨.el3, r⟩, q⟩ s =
      burst a .enterLp enterLpStep n ⟨⟨.el10, .ok⟩, asRet s.answer⟩
        { s.answered with
          link := .ulps, wd := s.disarmedWd, pdActive := false, phyOn := false, irqEnabled := false
          hist := s.hist ++ enterLpEvents (asRet s.answer) } := by
  cases hans : asRet s.answer <;> rw [State.answer] at hans <;>
    simp [burst_succ, enterLpStep, irqLineDisableThen, ElFrame.goto, Ctl.goto, Ctl.finish, State.act, Action.effect,
      State.record, State.actAsk, State.answered_eq, State.answer, State.setPdActive, State.disarmedWd, enterLpEvents,
      dump, reg, hans, hpd, hbusy]

/-- `EL.10` and `EL.11`: the lock is released and the result returned. -/
theorem enterLp_leaves {s : State} (hheld : s.lock = .held a) (r : Result) (q : RetAnswer) :
    burst a .enterLp enterLpStep (n + 2) ⟨⟨.el10, r⟩, q⟩ s = .next (State.deliver { s with lock := .free } a r) := by
  simp only [burst_succ, enterLpStep, unlock_of_holder hheld]
  rfl

/-- `XL.1` and `XL.2` in ULPS: the lock is taken. -/
theorem exitLp_enters {s : State} (hfree : s.lock = .free) (hlink : s.link = .ulps) :
    burst a .exitLp exitLpStep (n + 2) .start s =
      burst a .exitLp exitLpStep n ⟨⟨.xl3, .ok⟩, .ok⟩ { s with lock := .held a } := by
  simp only [burst_succ, XlFrame.start, XlFrame.goto, Ctl.goto, exitLpStep, lockThen_of_free a hfree]
  simp [State.setLock, hlink]

/-- `XL.1` and `XL.2` outside ULPS: `InvalidState` is raised (rule R152). -/
theorem exitLp_rejects {s : State} (hfree : s.lock = .free) (hlink : s.link ≠ .ulps) :
    burst a .exitLp exitLpStep (n + 2) .start s =
      burst a .exitLp exitLpStep n ⟨⟨.xl19, .invalidState⟩, .ok⟩ { s with lock := .held a } := by
  simp only [burst_succ, XlFrame.start, XlFrame.goto, Ctl.goto, exitLpStep, lockThen_of_free a hfree]
  simp [State.setLock, hlink, Ctl.raise, Ctl.finish]

/-- `XL.3` to `XL.18`: power, re-programming, retention left, link started (rules R153 to R155). -/
theorem exitLp_resumes (r : Result) (i : InitAnswer) (s : State) :
    burst a .exitLp exitLpStep (n + 16) ⟨⟨.xl3, r⟩, i⟩ s =
      burst a .exitLp exitLpStep n ⟨⟨.xl19, .ok⟩, asInit s.answer⟩
        { s.answered with
          link := .on, pdActive := true, phyOn := true, irqEnabled := true
          hist := s.hist ++ preambleEvents ++ reprogramEvents s.cfg (asInit s.answer) ++ [.act .exitRetention] ++
            startEvents } := by
  simp [burst_succ, exitLpStep, XlFrame.goto, Ctl.goto, Ctl.finish, State.act, Action.effect, State.record, State.actAsk,
    State.answered_eq, State.answer, State.setIrqEnabled, State.setLink, preambleEvents, reprogramEvents, startEvents]

/-- `XL.19` and `XL.20`: the lock is released and the result returned. -/
theorem exitLp_leaves {s : State} (hheld : s.lock = .held a) (r : Result) (i : InitAnswer) :
    burst a .exitLp exitLpStep (n + 2) ⟨⟨.xl19, r⟩, i⟩ s = .next (State.deliver { s with lock := .free } a r) := by
  simp only [burst_succ, exitLpStep, unlock_of_holder hheld]
  rfl

end

/-- An ENTER_LP by an `Idle` agent that finds the lock free, with nothing in between (rules R149 to R152). -/
theorem enterLp_completes {s : State} {c : Caller} (hidle : s.idleAs c) (hfree : s.lock = .free)
    (hpd : s.link = .on → s.pdActive = true) (hbusy : s.irqBusy = false) (hq : 30 ≤ s.quantum) :
    execEnterLp s = .next (afterEnterLp s c) := by
  obtain ⟨n, hn⟩ : ∃ n, s.quantum = n + 29 + 1 := ⟨s.quantum - 30, by omega⟩
  rw [execEnterLp, conduct_of_idle hidle _ _ _ _ hn]
  by_cases hlink : s.link = .on
  · rw [enterLp_enters _ _ (by exact hfree) (by exact hlink), enterLp_retains _ _ (by exact hpd hlink) (by exact hbusy)]
    simp only [State.answered_eq]
    rw [enterLp_leaves _ _ rfl, deliver_of_accepted hidle rfl]
    simp [afterEnterLp, hlink, hfree, State.answered_eq, State.answer, State.disarmedWd]
  · rw [enterLp_rejects _ _ (by exact hfree) (by exact hlink), enterLp_leaves _ _ rfl, deliver_of_accepted hidle rfl]
    simp [afterEnterLp, hlink, hfree]

/-- An EXIT_LP by an `Idle` agent that finds the lock free, with nothing in between (rules R152 to R155). -/
theorem exitLp_completes {s : State} {c : Caller} (hidle : s.idleAs c) (hfree : s.lock = .free) (hq : 30 ≤ s.quantum) :
    execExitLp s = .next (afterExitLp s c) := by
  obtain ⟨n, hn⟩ : ∃ n, s.quantum = n + 29 + 1 := ⟨s.quantum - 30, by omega⟩
  rw [execExitLp, conduct_of_idle hidle _ _ _ _ hn]
  by_cases hlink : s.link = .ulps
  · rw [exitLp_enters _ _ (by exact hfree) (by exact hlink), exitLp_resumes]
    simp only [State.answered_eq]
    rw [exitLp_leaves _ _ rfl, deliver_of_accepted hidle rfl]
    simp [afterExitLp, hlink, hfree, State.answered_eq, State.answer]
  · rw [exitLp_rejects _ _ (by exact hfree) (by exact hlink), exitLp_leaves _ _ rfl, deliver_of_accepted hidle rfl]
    simp [afterExitLp, hlink, hfree]

/-! ## The matrix of rule R28 -/

theorem afterBringUp_link (goal : LinkState) (s : State) (c : Caller) : (afterBringUp goal s c).link = goal := by
  unfold afterBringUp
  by_cases hat : s.link = goal
  · rw [if_pos hat]
    exact hat
  · rw [if_neg hat]
    split_ifs <;> rfl

theorem afterBringUp_callers (goal : LinkState) (s : State) (c : Caller) :
    (afterBringUp goal s c).callers = s.answeredCallers c .ok := by
  unfold afterBringUp
  split_ifs <;> rfl

theorem afterTearDown_link (goal : LinkState) (s : State) (c : Caller) : (afterTearDown goal s c).link = goal := by
  unfold afterTearDown
  split_ifs <;> rfl

theorem afterTearDown_callers (goal : LinkState) (s : State) (c : Caller) :
    (afterTearDown goal s c).callers = s.answeredCallers c .ok := by
  unfold afterTearDown
  split_ifs <;> rfl

/-- Settles O34: what each transition leaves when nothing interrupts it, read at its link state and its result. -/
theorem transitionMatrix : Obligations.TransitionMatrix := by
  intro i s c htrans hidle hfree hbusy hdoze hpd hq
  cases i with
  | enable =>
    exact ⟨_, bringUp_completes .on hidle hfree hq _ _, afterBringUp_link .., afterBringUp_callers ..⟩
  | disable =>
    exact ⟨_, tearDown_completes .off hidle hfree hbusy hq _ _, afterTearDown_link .., afterTearDown_callers ..⟩
  | enterLp =>
    refine ⟨_, enterLp_completes hidle hfree hpd hbusy hq, ?_⟩
    cases hlink : s.link <;> simp [afterEnterLp, linkMatrix, hlink]
  | exitLp =>
    refine ⟨_, exitLp_completes hidle hfree hq, ?_⟩
    cases hlink : s.link <;> simp [afterExitLp, linkMatrix, hlink]
  | doze =>
    have hrun : exec .doze s = .next (afterBringUp .doze s c) := by
      show execDoze s = _
      rw [execDoze, if_pos hdoze, bringUp_completes .doze hidle hfree hq]
    exact ⟨_, hrun, afterBringUp_link .., afterBringUp_callers ..⟩
  | dozeSuspend =>
    have hrun : exec .dozeSuspend s = .next (afterTearDown .dozeSuspend s c) := by
      show execDozeSuspend s = _
      rw [execDozeSuspend, if_pos hdoze, tearDown_completes .dozeSuspend hidle hfree hbusy hq]
    exact ⟨_, hrun, afterTearDown_link .., afterTearDown_callers ..⟩
  | write | read | reserved6 | reserved7 | reservedA | reservedB | reservedC | reservedD | reservedE | reservedF =>
    cases htrans

end Sys2Proof.Machine
end

section
/-! PROOFS. The turns of the other agents (O8), the bytes of payload words (O6) and locked sections (O15). -/

namespace Sys2Proof.Machine

/-! ## The turns that are no caller agent's -/

/-- Without a fault and with no turn listed, a free one is taken (rule R70). -/
theorem step_of_no_turns {s : State} (hf : s.fault = none) (hturns : s.turns = []) :
    step s = runTurn (Config.freeTurn s.turnDraws) (s.setTurns [] (s.turnDraws + 1)) := by
  simp [step, hf, State.nextTurn, State.turnTaken, hturns]

/-- Settles O8: a listed turn is run as `runTurn` says, else the drawn one. -/
theorem stepRunsTheOtherAgents : Obligations.StepRunsTheOtherAgents := by
  intro s hf
  exact ⟨fun _ h => step_of_turns hf h, fun _ h => step_of_turns hf h, fun _ h => step_of_turns hf h,
    fun _ _ _ h => step_of_turns hf h, fun _ _ _ h => step_of_turns hf h, step_of_no_turns hf⟩

/-! ## Payload words (rules R65, R102) -/

/-- The bytes of a packed word are the four it was packed from, the first in the least significant place. -/
theorem byteOf_packWord (b : Nat → Byte) {j : Nat} (hj : j < 4) :
    byteOf (packWord (b 0) (b 1) (b 2) (b 3)) j = b j := by
  have hcases : j = 0 ∨ j = 1 ∨ j = 2 ∨ j = 3 := by omega
  rcases hcases with rfl | rfl | rfl | rfl
  all_goals
    ext i hi
    simp only [byteOf, packWord]
    grind

theorem byteOf_payloadWord (s : State) (buf : Option BufHandle) (len k : Nat) {j : Nat} (hj : j < 4) :
    byteOf (payloadWord s buf len k) j = payloadByte s buf len (4 * k + j) :=
  byteOf_packWord (fun j => payloadByte s buf len (4 * k + j)) hj

/-- Settles O6: byte `i` of the payload is byte `i % 4` of word `i / 4`. -/
theorem payloadWordsHoldThePayload : Obligations.PayloadWordsHoldThePayload := by
  intro s buf len
  refine ⟨fun k j hj => byteOf_payloadWord s buf len k hj, fun i hi => ⟨by unfold wordsFor; omega, ?_⟩⟩
  rw [byteOf_payloadWord _ _ _ _ (Nat.mod_lt i (by decide)), Nat.div_add_mod, payloadByte, if_pos hi]

/-! ## Locked sections (rules R74 (a), R188) -/

/-- The operations of one agent that are inside their locked section are one (rules R29, R72). -/
theorem State.lockAccounted.unique {s : State} (h : s.lockAccounted) {a : Nat} {c : Caller} {f g : Frame}
    (hc : s.callers[a]? = some c) (hf : f ∈ c.stack) (hg : g ∈ c.stack) (hflocked : f.locked = true)
    (hglocked : g.locked = true) : f = g := by
  have hone : (c.stack.filter Frame.locked).length = 1 := by
    rw [← List.countP_eq_length_filter, h.1 a c hc, if_pos (h.held hc hf hflocked)]
  obtain ⟨x, hx⟩ := List.length_eq_one_iff.mp hone
  have hof {e : Frame} (he : e ∈ c.stack) (hlocked : e.locked = true) : e = x := by
    simpa [hx] using List.mem_filter.mpr ⟨he, hlocked⟩
  rw [hof hf hflocked, hof hg hglocked]

/-- Settles O15: both agents hold the one lock, so they are one agent, and its locked operation is unique. -/
theorem lockedSectionsNeverOverlap : Obligations.LockedSectionsNeverOverlap := by
  rintro s ⟨-, hlock, -, -⟩ a b c d f g hc hd hf hg hflocked hglocked
  have hheld : s.lock = .held a := hlock.held hc hf hflocked
  obtain rfl : a = b := Lock.held.inj (hheld.symm.trans (hlock.held hd hg hglocked))
  obtain rfl : c = d := Option.some.inj (hc.symm.trans hd)
  exact ⟨rfl, hlock.unique hc hf hg hflocked hglocked, hheld⟩

end Sys2Proof.Machine
end

section
/-! PROOFS. What every step keeps of the memory (O16), and what a micro-step records without power (O19). -/

namespace Sys2Proof.Machine

/-! ## The caller buffers as one memory (rule R61) -/

/-- The one update of the memory, `Memory.write`, keeps the canonical form. -/
theorem wf_keptByOps (a : Nat) : KeptByOps a fun t => Memory.wf t.mem = true where
  record _ _ _ h := h
  answered _ h := by simpa using h
  setLink _ _ h := h
  takeLock _ _ h := h
  unlock _ h := by simpa using h
  setSigPh _ _ h := h
  setSigRd _ _ h := h
  setWd _ _ h := h
  setPdActive _ _ h := h
  setPhyOn _ _ h := h
  setIrqEnabled _ _ h := h
  memWrite _ _ _ h := Memory.wf_write _ _ _ h
  modifyCaller _ _ h := by simpa using h

/-- The interrupt agent does not write the caller buffers. -/
theorem irqTurn_mem {s t : State} (ht : irqTurn s = .next t) : t.mem = s.mem := by
  refine irqTurn_keeps (P := fun u => u.mem = s.mem) rfl ?_ (fun _ _ h => h) ht
  cases hl : s.irq.label <;> simp [irqStep, hl, apply_ite]

/-- The watchdog agent does not write the caller buffers. -/
theorem wdtTurn_mem {s t : State} (ht : wdtTurn s = .next t) : t.mem = s.mem :=
  wdtTurn_keeps (P := fun u => u.mem = s.mem) rfl (by simp [wdtStep]) (fun _ _ h => h) ht

theorem runTurn_mem_wf {turn : Turn} {s t : State} (h : Memory.wf s.mem = true) (ht : runTurn turn s = .next t) :
    Memory.wf t.mem = true := by
  cases turn with
  | caller a more => exact callerTurn_keeps (wf_keptByOps a) h h ht
  | irq => rwa [irqTurn_mem ht]
  | wdt => rwa [wdtTurn_mem ht]
  | tick => cases ht; exact h
  | request a r => rcases presentRequest_next ht with rfl | rfl <;> simpa using h
  | hostStore addr v => cases ht; exact Memory.wf_write _ _ _ h

/-- Settles O16: a byte is stored by `Memory.write` alone, in READ and by the host, and that keeps the canonical form. -/
theorem stepKeepsMemoryCanonical : Obligations.StepKeepsMemoryCanonical := by
  intro s t h ht
  exact runTurn_mem_wf (by simpa using h) (step_next ht)

/-! ## Register accesses (rules R77, R296) -/

/-- The history `h'` is `h` and after it no register primitive and no dump. -/
def QuietAfter (h h' : List Event) : Prop := ∃ es, h' = h ++ es ∧ ∀ e ∈ es, e.touchesRegisters = false

@[simp] theorem quietAfter_self (h : List Event) : QuietAfter h h := ⟨[], by simp⟩

@[simp] theorem quietAfter_append_one (h : List Event) (e : Event) :
    QuietAfter h (h ++ [e]) ↔ e.touchesRegisters = false := by
  simp [QuietAfter]

/-- Without power a WRITE records no register access in a micro-step: each one faults instead. -/
theorem writeStep_quiet (a : Nat) (f : WriteFrame) {s : State} (hpd : s.pdActive = false) :
    (writeStep a f s).Leaves fun t => QuietAfter s.hist t.hist := by
  cases hl : f.ctl.label with
  | w9 =>
    simp only [writeStep, hl]
    refine leaves_waitThen _ _ _ _ ?_ ?_ <;> rintro t (rfl | rfl) <;> simp
  | _ => simp [writeStep, hl, decideWait, hpd, Event.touchesRegisters, apply_ite]

theorem nestedWrite_quiet (a : Nat) (f : ReadFrame) (g : WriteFrame) (l : RLabel) {s : State}
    (hpd : s.pdActive = false) : (nestedWrite a f g l s).Leaves fun t => QuietAfter s.hist t.hist := by
  unfold nestedWrite
  split
  · simp
  · rename_i w _
    have hw := writeStep_quiet a w hpd
    split <;> simp_all

/-- Without power a READ records no register access in a micro-step. -/
theorem readStep_quiet (a : Nat) (f : ReadFrame) {s : State} (hpd : s.pdActive = false) :
    (readStep a f s).Leaves fun t => QuietAfter s.hist t.hist := by
  cases hl : f.ctl.label with
  | r4 => simpa only [readStep, hl] using nestedWrite_quiet a f _ _ hpd
  | r5 =>
    have hw := nestedWrite_quiet a f (requestWrite f.ty f.d0) .r6 hpd
    simp only [readStep, hl]
    split <;> simp_all
  | r6 =>
    simp only [readStep, hl]
    refine leaves_waitThen _ _ _ _ ?_ ?_ <;> rintro t (rfl | rfl) <;> simp
  | _ => simp [readStep, hl, appendByte, hpd, Event.touchesRegisters]

/-- Without power no operation records a register access in a micro-step (rule R296). -/
theorem frameStep_quiet (a : Nat) (fr : Frame) {s : State} (hpd : s.pdActive = false) :
    (frameStep a fr s).Leaves fun t => QuietAfter s.hist t.hist := by
  cases fr <;> simp only [frameStep, Micro.leaves_map]
  case enable f | doze f =>
    cases hl : f.ctl.label <;> simp [bringUp, hl, hpd, Event.touchesRegisters, State.actAsk, apply_ite]
  case disable f | dozeSuspend f =>
    cases hl : f.ctl.label <;> simp [tearDown, hl, powerOffIfOff, Event.touchesRegisters, apply_ite]
  case enterLp f => cases hl : f.ctl.label <;> simp [enterLpStep, hl, hpd, Event.touchesRegisters, State.actAsk]
  case exitLp f => cases hl : f.ctl.label <;> simp [exitLpStep, hl, Event.touchesRegisters, State.actAsk]
  case write f => exact writeStep_quiet a f hpd
  case read f => exact readStep_quiet a f hpd

/-- Without power the turn of an operation, if it is one micro-step, records no register access. -/
theorem exec_one_quiet {i : Instr} {s t : State} (hq : s.quantum = 0) (hpd : s.pdActive = false)
    (ht : exec i s = .next t) : QuietAfter s.hist t.hist := by
  rcases exec_next ht with ⟨-, rfl⟩ | ⟨c, -, -, -, rfl⟩ | ⟨c, fr, -, -, -, ht⟩ | ⟨c, fr, rest, -, -, -, ht⟩
  · simp
  · simp [State.answerAtOnce]
  · rw [hq, burst_zero] at ht
    cases ht
    simp [State.saveTop, State.accept]
  · rw [hq] at ht
    exact burst_one (P := fun u => QuietAfter s.hist u.hist) (by simp) (frameStep_quiet s.cur fr hpd) (by simp) ht

theorem irqTurn_quiet {s t : State} (hpd : s.pdActive = false) (ht : irqTurn s = .next t) :
    QuietAfter s.hist t.hist := by
  refine irqTurn_keeps (P := fun u => QuietAfter s.hist u.hist) (by simp) ?_ (fun _ _ h => h) ht
  cases hl : s.irq.label <;> simp [irqStep, hl, hpd, Event.touchesRegisters, apply_ite]

theorem wdtTurn_quiet {s t : State} (hpd : s.pdActive = false) (ht : wdtTurn s = .next t) :
    QuietAfter s.hist t.hist :=
  wdtTurn_keeps (P := fun u => QuietAfter s.hist u.hist) (by simp) (by simp [wdtStep, hpd]) (fun _ _ h => h) ht

/-- Without power no single micro-step of any agent records a register access. -/
theorem runTurn_quiet {turn : Turn} {s t : State} (hone : ∀ a more, turn = .caller a more → more = 0)
    (hpd : s.pdActive = false) (ht : runTurn turn s = .next t) : QuietAfter s.hist t.hist := by
  cases turn with
  | caller a more =>
    obtain rfl := hone a more rfl
    rcases callerTurn_next ht with rfl | ⟨i, hexec⟩
    · simp
    · exact exec_one_quiet (s := s.focus a 0) rfl hpd hexec
  | irq => exact irqTurn_quiet hpd ht
  | wdt => exact wdtTurn_quiet hpd ht
  | tick | hostStore addr v => cases ht; simp
  | request a r => rcases presentRequest_next ht with rfl | rfl <;> simp

/-- Settles O19: with power on this is O18, that the history only grows; without it every register access is a fault, so no
micro-step that goes on records one. -/
theorem registersTouchedOnlyWithPower : Obligations.RegistersTouchedOnlyWithPower := by
  intro s t hone ht
  cases hpd : s.pdActive with
  | true =>
    obtain ⟨es, hes, -⟩ := historyOnlyGrows s t ht
    exact ⟨es, hes, fun _ _ _ => rfl⟩
  | false =>
    obtain ⟨es, hes, hnone⟩ := runTurn_quiet hone (by simpa using hpd) (step_next ht)
    exact ⟨es, by simpa using hes, fun e he htouch => by simp [hnone e he] at htouch⟩

end Sys2Proof.Machine
end

section
/-! PROOFS. What a WRITE (O26) and a READ (O27) leave alone. -/

namespace Sys2Proof.Machine

/-- A turn given to an operation keeps what every micro-step of it keeps, where the micro-steps may rely on what holds of the
operation's latches from its acceptance on. -/
theorem conduct_keeps_while {F : Type} {refusal : Option Refusal} {start : Option F} {view : Frame → Option F}
    {wrap : F → Frame} {micro : Nat → F → State → Micro F} {s t : State} {P : State → Prop} (I : F → Prop)
    (hstart : ∀ f, start = some f → I f) (hview : ∀ fr f, view fr = some f → I f)
    (hlatches : ∀ f u, I f → (micro s.cur f u).GoesOn fun f' _ => I f')
    (hmicro : ∀ f u, I f → P u → (micro s.cur f u).Leaves P) (hmod : ∀ u g, P u → P (u.modifyCaller s.cur g)) (h : P s)
    (ht : conduct refusal start view wrap micro s = .next t) : P t := by
  have hburst {n f u} (hf : I f) (hu : P u) (hb : burst s.cur wrap micro n f u = .next t) : P t := by
    refine burst_next (fun f v => I f ∧ P v) P ?_ (fun _ _ ⟨_, hv⟩ => hmod _ _ hv) ?_ ⟨hf, hu⟩ hb
    · intro f v f' v' ⟨hf, hv⟩ hm
      exact ⟨by simpa [hm] using hlatches f v hf, by simpa [hm] using hmicro f v hf hv⟩
    · intro f v r v' ⟨hf, hv⟩ hm
      exact hmod _ _ (by simpa [hm] using hmicro f v hf hv)
  rcases conduct_cases ht with ⟨-, hs⟩ | ⟨c, -, -, ⟨r, -, hr⟩ | ⟨-, hadmit⟩⟩ | ⟨c, -, -, ⟨-, hr⟩ | ⟨f, hf, hb⟩⟩
  · cases hs; exact h
  · cases hr
  · cases start with
    | none => rw [admitThen_none] at hadmit; cases hadmit; exact hmod _ _ h
    | some f =>
      cases hq : s.quantum with
      | zero => rw [hq, admitThen_zero] at hadmit; cases hadmit; exact hmod _ _ h
      | succ n => rw [hq, admitThen_some] at hadmit; exact hburst (hstart f rfl) (hmod _ _ h) hadmit
  · cases hr
  · obtain ⟨fr, -, hfr⟩ := Option.bind_eq_some_iff.mp hf
    exact hburst (hview fr f hfr) h hb

theorem State.SameLinkAndFlags.trans {s t u : State} (hst : s.SameLinkAndFlags t) (htu : t.SameLinkAndFlags u) :
    s.SameLinkAndFlags u := by
  simp_all [State.SameLinkAndFlags]

/-- Two things that a micro-step leaves it leaves together. -/
theorem Micro.Leaves.and {F : Type} {P Q : State → Prop} {m : Micro F} (hP : m.Leaves P) (hQ : m.Leaves Q) :
    m.Leaves fun t => P t ∧ Q t := by
  cases m with
  | blocked | fault => trivial
  | cont f s | ret r s => exact ⟨hP, hQ⟩

/-! ## WRITE -/

/-- No micro-step of WRITE writes the read-ready signal or a byte of memory (rules R61, R170). -/
theorem writeStep_sigRd_mem (a : Nat) (f : WriteFrame) (s : State) :
    (writeStep a f s).Leaves fun t => t.sigRd = s.sigRd ∧ t.mem = s.mem := by
  cases hl : f.ctl.label with
  | w9 =>
    simp only [writeStep, hl]
    refine leaves_waitThen _ _ _ _ ?_ ?_ <;> rintro t (rfl | rfl) <;> simp
  | _ => simp [writeStep, hl, decideWait, apply_ite]

/-- `t` is `s` as far as no WRITE may write. -/
def State.SameOutsideWrite (s t : State) : Prop := s.SameLinkAndFlags t ∧ t.sigRd = s.sigRd ∧ t.mem = s.mem

theorem writeStep_keeps_sameOutsideWrite {a : Nat} {f : WriteFrame} {s u : State} (h : s.SameOutsideWrite u) :
    (writeStep a f u).Leaves s.SameOutsideWrite :=
  ((writeStep_sameLinkAndFlags a f u).and (writeStep_sigRd_mem a f u)).mono fun _ ⟨hlink, hsig, hmem⟩ =>
    ⟨h.1.trans hlink, hsig.trans h.2.1, hmem.trans h.2.2⟩

/-- Settles O26: no micro-step of WRITE writes what is to be left alone, and nor do acceptance and return. -/
theorem writeFrameRule : Obligations.WriteFrameRule := by
  intro ty d0 d1 len buf s t ht
  have hsame : s.SameOutsideWrite t :=
    conduct_keeps_while (fun _ => True) (fun _ _ => trivial) (fun _ _ _ => trivial)
      (fun _ _ _ => Micro.goesOn_of_forall fun _ _ => trivial) (fun _ _ _ => writeStep_keeps_sameOutsideWrite)
      (fun _ _ h => by simpa [State.SameOutsideWrite, State.SameLinkAndFlags] using h) ⟨⟨rfl, rfl, rfl, rfl⟩, rfl, rfl⟩ ht
  obtain ⟨⟨hlink, hpd, hphy, hirq⟩, hsig, hmem⟩ := hsame
  exact ⟨hlink, hpd, hphy, hirq, hsig, hmem⟩

/-! ## READ -/

/-- The memory of `t` is that of `s` but for the first `cap` bytes of `buf`. -/
def State.SameMemOutside (buf : Option BufHandle) (cap : Nat) (s t : State) : Prop :=
  ∀ x, (∀ i, i < cap → x ≠ bufAddr buf i) → Memory.read t.mem x = Memory.read s.mem x

theorem State.SameMemOutside.of_mem_eq {buf : Option BufHandle} {cap : Nat} {s t : State} (h : t.mem = s.mem) :
    s.SameMemOutside buf cap t := fun x _ => by rw [h]

theorem State.SameMemOutside.trans {buf : Option BufHandle} {cap : Nat} {s t u : State}
    (hst : s.SameMemOutside buf cap t) (htu : t.SameMemOutside buf cap u) : s.SameMemOutside buf cap u :=
  fun x hx => (htu x hx).trans (hst x hx)

/-- A byte stored inside the buffer changes no other. -/
theorem State.sameMemOutside_memWrite {buf : Option BufHandle} {cap i : Nat} (hi : i < cap) (s : State) (v : Byte) :
    s.SameMemOutside buf cap (s.memWrite buf i v) := fun _ hx => Memory.read_write_ne _ v (hx i hi)

/-- `append` stores inside the buffer or nowhere (rule R213). -/
theorem appendByte_mem (f : ReadFrame) (b : Byte) (l : RLabel) (s : State) :
    (appendByte f b l s).Leaves (s.SameMemOutside f.out f.cap.toNat) := by
  unfold appendByte
  split
  · exact State.sameMemOutside_memWrite ‹_› s b
  · exact .of_mem_eq rfl

theorem nestedWrite_mem (a : Nat) (f : ReadFrame) (g : WriteFrame) (l : RLabel) (s : State) :
    (nestedWrite a f g l s).Leaves fun t => t.mem = s.mem := by
  unfold nestedWrite
  split
  · rfl
  · rename_i w _
    have hw := writeStep_sigRd_mem a w s
    split <;> simp_all

/-- A micro-step of READ writes no memory outside its buffer (rules R61, R213). -/
theorem readStep_mem (a : Nat) (f : ReadFrame) (s : State) :
    (readStep a f s).Leaves (s.SameMemOutside f.out f.cap.toNat) := by
  cases hl : f.ctl.label with
  | r10s | r10t | r10t2 => simpa only [readStep, hl] using appendByte_mem f _ _ s
  | r10p =>
    simp only [readStep, hl]
    split
    · exact appendByte_mem { f with b := f.b + 1 } _ _ s
    · exact .of_mem_eq rfl
  | r4 =>
    simp only [readStep, hl]
    exact (nestedWrite_mem a f _ _ s).mono fun _ => .of_mem_eq
  | r5 =>
    have hw := nestedWrite_mem a f (requestWrite f.ty f.d0) .r6 s
    simp only [readStep, hl]
    split <;> simp_all [State.SameMemOutside]
  | r6 =>
    simp only [readStep, hl]
    refine leaves_waitThen _ _ _ _ ?_ ?_ <;> rintro t (rfl | rfl) <;> simp [State.SameMemOutside]
  | _ => simp [readStep, hl, State.SameMemOutside]

section
variable {F : Type} (R : F → State → Prop)

@[simp] theorem goesOn_reg (s : State) (e : Event) (k : State → Micro F) :
    (reg s e k).GoesOn R ↔ (s.pdActive = true → (k (s.record e)).GoesOn R) := by simp [reg]

@[simp] theorem goesOn_dump (s : State) (c : DumpCause) (k : State → Micro F) :
    (dump s c k).GoesOn R ↔ (s.pdActive = true → (k (s.record (.dump c))).GoesOn R) := goesOn_reg R s _ k

@[simp] theorem goesOn_unlessStuck (a : Nat) (s : State) (ends : Bool) (m : Micro F) :
    (unlessStuck a s ends m).GoesOn R ↔ (¬(ends = true ∧ s.lock = .held a) → m.GoesOn R) := by
  simp only [unlessStuck, Micro.goesOn_ite, Micro.goesOn_blocked, implies_true, true_and]

/-- A wait goes on from its own state, or at a tie from the one in which the environment has answered (rule R237). -/
theorem goesOn_waitThen {R : F → State → Prop} {s : State} {onSignal onTimeout : State → Micro F} (done : Bool)
    (t0 limit : Nat) (hsig : ∀ t, (onSignal t).GoesOn R) (htime : ∀ t, (onTimeout t).GoesOn R) :
    (waitThen s done t0 limit onSignal onTimeout).GoesOn R := by
  unfold waitThen
  split
  · trivial
  · exact hsig s
  · exact htime s
  · exact (Micro.goesOn_ite R _ _ _).mpr ⟨fun _ => htime _, fun _ => hsig _⟩

end

/-- `f` is a READ into the first `cap` bytes of `buf`. -/
def ReadFrame.Into (buf : Option BufHandle) (cap : Half) (f : ReadFrame) : Prop := f.out = buf ∧ f.cap = cap

section
variable (f : ReadFrame)

@[simp] theorem ReadFrame.goto_out (l : RLabel) : (f.goto l).out = f.out := rfl
@[simp] theorem ReadFrame.goto_cap (l : RLabel) : (f.goto l).cap = f.cap := rfl
@[simp] theorem ReadFrame.finish_out (r : Result) (l : RLabel) : (f.finish r l).out = f.out := rfl
@[simp] theorem ReadFrame.finish_cap (r : Result) (l : RLabel) : (f.finish r l).cap = f.cap := rfl
@[simp] theorem ReadFrame.raise_out (e : Result) (l : RLabel) : (f.raise e l).out = f.out := rfl
@[simp] theorem ReadFrame.raise_cap (e : Result) (l : RLabel) : (f.raise e l).cap = f.cap := rfl

end

/-- The latches of a READ in flight are those of the READ that was requested. -/
theorem Frame.asRead_into {ty addr : Byte} {maxLen cap : Half} {buf : Option BufHandle} {fr : Frame} {f : ReadFrame}
    (h : fr.asRead ty addr maxLen cap buf = some f) : f.Into buf cap := by
  cases fr with
  | read g =>
    simp only [Frame.asRead, Option.ite_none_right_eq_some, Option.some.injEq] at h
    obtain ⟨⟨-, -, -, hcap, hout⟩, rfl⟩ := h
    exact ⟨hout, hcap⟩
  | _ => simp [Frame.asRead] at h

theorem nestedWrite_into {buf : Option BufHandle} {cap : Half} {f : ReadFrame} (h : f.Into buf cap) (a : Nat)
    (g : WriteFrame) (l : RLabel) (s : State) : (nestedWrite a f g l s).GoesOn fun f' _ => f'.Into buf cap := by
  unfold nestedWrite
  split
  · exact h
  · split
    · trivial
    · trivial
    · exact h
    · exact h

/-- Every micro-step of READ keeps the operand latches `out` and `cap` (rule R96). -/
theorem readStep_into {buf : Option BufHandle} {cap : Half} {f : ReadFrame} (h : f.Into buf cap) (a : Nat)
    (s : State) : (readStep a f s).GoesOn fun f' _ => f'.Into buf cap := by
  cases hl : f.ctl.label with
  | r4 => simpa only [readStep, hl] using nestedWrite_into h a _ _ s
  | r5 =>
    have hw := nestedWrite_into h a (requestWrite f.ty f.d0) .r6 s
    simp only [readStep, hl]
    split <;> simp_all [ReadFrame.Into]
  | r6 =>
    simp only [readStep, hl]
    exact goesOn_waitThen _ _ _ (fun _ => h) (fun _ => h)
  | _ => simp_all [readStep, appendByte, ReadFrame.Into]

/-- Settles O27: every micro-step of READ keeps its operands, and stores at most inside the buffer that they name. -/
theorem readFrameRule : Obligations.ReadFrameRule := by
  intro ty addr maxLen cap buf s t ht
  have hsame : s.SameLinkAndFlags t ∧ s.SameMemOutside buf cap.toNat t := by
    refine conduct_keeps_while (P := fun u => s.SameLinkAndFlags u ∧ s.SameMemOutside buf cap.toNat u)
      (ReadFrame.Into buf cap) ?_ ?_ (fun f u hf => readStep_into hf _ u) ?_ ?_ ⟨⟨rfl, rfl, rfl, rfl⟩, .of_mem_eq rfl⟩ ht
    · rintro f ⟨⟩
      exact ⟨rfl, rfl⟩
    · exact fun fr f => Frame.asRead_into
    · rintro f u ⟨rfl, rfl⟩ ⟨hlink, hmem⟩
      exact ((readStep_sameLinkAndFlags s.cur f u).and (readStep_mem s.cur f u)).mono fun _ ⟨hlink', hmem'⟩ =>
        ⟨hlink.trans hlink', hmem.trans hmem'⟩
    · intro u g hu
      simpa [State.SameLinkAndFlags, State.SameMemOutside] using hu
  obtain ⟨⟨hlink, hpd, hphy, hirq⟩, hmem⟩ := hsame
  exact ⟨hlink, hpd, hphy, hirq, hmem⟩

end Sys2Proof.Machine
end

section
/-! PROOFS. Where a micro-step is not enabled (O28), and the transition that waits for the lock (O35). -/

namespace Sys2Proof.Machine

/-! ## Where a micro-step is not enabled (rules R76, R114, R297)

For each shared operation, when it is not enabled; what is not listed is always enabled. -/

section
variable {F : Type}

@[simp] theorem reg_eq_blocked (s : State) (e : Event) (k : State → Micro F) :
    reg s e k = .blocked ↔ s.pdActive = true ∧ k (s.record e) = .blocked := by
  cases h : s.pdActive <;> simp [reg, h]

@[simp] theorem regAsk_eq_blocked {α : Type} (s : State) (read : Nat → α) (e : α → Event) (k : α → State → Micro F) :
    regAsk s read e k = .blocked ↔
      s.pdActive = true ∧ k (read s.answer) (s.answered.record (e (read s.answer))) = .blocked := by
  cases h : s.pdActive <;> simp [regAsk, h]

@[simp] theorem dump_eq_blocked (s : State) (c : DumpCause) (k : State → Micro F) :
    dump s c k = .blocked ↔ s.pdActive = true ∧ k (s.record (.dump c)) = .blocked := reg_eq_blocked s _ k

@[simp] theorem lockThen_eq_blocked (a : Nat) (s : State) (k : State → Micro F) :
    lockThen a s k = .blocked ↔ (s.lock = .free → k (s.setLock (.held a)) = .blocked) := by simp [lockThen]

@[simp] theorem unlessStuck_eq_blocked (a : Nat) (s : State) (ends : Bool) (m : Micro F) :
    unlessStuck a s ends m = .blocked ↔ (ends = true ∧ s.lock = .held a) ∨ m = .blocked := by
  by_cases h : ends = true ∧ s.lock = .held a <;> simp [unlessStuck, h]

@[simp] theorem irqLineDisableThen_eq_blocked (s : State) (k : State → Micro F) :
    irqLineDisableThen s k = .blocked ↔ (s.irqBusy = false → k (s.act .irqLineDisable) = .blocked) := by
  simp [irqLineDisableThen]

/-- A wait that goes on enabled at either end is not enabled exactly before its flag and its time (rule R236). -/
theorem waitThen_eq_blocked {s : State} {done : Bool} {t0 limit : Nat} {onSignal onTimeout : State → Micro F}
    (hsig : ∀ t, onSignal t ≠ .blocked) (htime : ∀ t, onTimeout t ≠ .blocked) :
    waitThen s done t0 limit onSignal onTimeout = .blocked ↔ done = false ∧ s.now < t0 + limit := by
  by_cases htick : t0 + limit ≤ s.now <;> cases done <;>
    simp [waitThen, htick, hsig, htime, ite_eq_iff, Nat.lt_of_not_le]

end

theorem bringUp_blocked {goal : LinkState} {a : Nat} {f : BuFrame} {s : State} (h : bringUp goal a f s = .blocked) :
    f.ctl.label = .bu1 ∧ s.lock ≠ .free := by
  cases hl : f.ctl.label <;> simp_all [bringUp, ite_eq_iff]

theorem tearDown_blocked {goal : LinkState} {a : Nat} {f : TdFrame} {s : State} (h : tearDown goal a f s = .blocked) :
    (f.ctl.label = .td1 ∧ s.lock ≠ .free) ∨ (f.ctl.label = .td7 ∧ s.irqBusy = true) := by
  cases hl : f.ctl.label <;> simp_all [tearDown, powerOffIfOff, ite_eq_iff]

theorem enterLpStep_blocked {a : Nat} {f : ElFrame} {s : State} (h : enterLpStep a f s = .blocked) :
    (f.ctl.label = .el1 ∧ s.lock ≠ .free) ∨ (f.ctl.label = .el5 ∧ s.irqBusy = true) := by
  cases hl : f.ctl.label <;> simp_all [enterLpStep, ite_eq_iff]

theorem exitLpStep_blocked {a : Nat} {f : XlFrame} {s : State} (h : exitLpStep a f s = .blocked) :
    f.ctl.label = .xl1 ∧ s.lock ≠ .free := by
  cases hl : f.ctl.label <;> simp_all [exitLpStep, ite_eq_iff]

theorem writeStep_blocked {a : Nat} {f : WriteFrame} {s : State} (h : writeStep a f s = .blocked) :
    (f.ctl.label = .w1 ∧ s.lock ≠ .free) ∨
      (f.ctl.label = .w9 ∧ s.sigPh.done = false ∧ s.now < f.t0 + s.par.wrTimeout.val) := by
  cases hl : f.ctl.label with
  | w9 =>
    simp only [writeStep, hl] at h
    exact .inr ⟨rfl, (waitThen_eq_blocked (by simp) (by simp)).mp h⟩
  | _ => simp_all [writeStep, decideWait, ite_eq_iff]

theorem nestedWrite_blocked {a : Nat} {f : ReadFrame} {g : WriteFrame} {l : RLabel} {s : State}
    (h : nestedWrite a f g l s = .blocked) : ∃ w, f.sub = some w ∧ writeStep a w s = .blocked := by
  unfold nestedWrite at h
  split at h
  · cases h
  · rename_i w hw
    split at h <;> cases h
    exact ⟨w, hw, ‹_›⟩

theorem appendByte_ne_blocked (f : ReadFrame) (b : Byte) (l : RLabel) (s : State) : appendByte f b l s ≠ .blocked := by
  simp [appendByte, ite_eq_iff]

theorem readStep_blocked {a : Nat} {f : ReadFrame} {s : State} (h : readStep a f s = .blocked) :
    (f.ctl.label = .r7 ∧ s.lock ≠ .free) ∨
      (f.ctl.label = .r6 ∧ s.sigRd.done = false ∧ s.now < f.t0 + s.par.rdTimeout.val) ∨
      (s.lock = .held a ∧ (f.ctl.label = .r1 ∧ s.link = .off ∨ f.ctl.label = .r3 ∧ s.pdActive = false)) ∨
      ((f.ctl.label = .r4 ∨ f.ctl.label = .r5) ∧ ∃ g, f.sub = some g ∧ writeStep a g s = .blocked) := by
  cases hl : f.ctl.label with
  | r4 =>
    simp only [readStep, hl] at h
    simpa using nestedWrite_blocked h
  | r5 =>
    simp only [readStep, hl] at h
    split at h <;> cases h
    simpa using nestedWrite_blocked ‹_›
  | r6 =>
    simp only [readStep, hl] at h
    simpa using (waitThen_eq_blocked (by simp) (by simp)).mp h
  | _ => simp_all [readStep, appendByte_ne_blocked, ite_eq_iff]

theorem irqStep_blocked {f : IrqAgent} {s : State} (h : irqStep f s = .blocked) :
    f.label = .idle ∧ ¬ (s.irqEnabled = true ∧ s.irqBusy = false) := by
  cases hl : f.label <;> simp_all [irqStep, ite_eq_iff]

/-- Settles O28: label by label, a micro-step that is not enabled is one of the shared operations that can be kept back. -/
theorem onlyLockWaitAndLineDisableBlock : Obligations.OnlyLockWaitAndLineDisableBlock :=
  ⟨fun _ _ _ _ => bringUp_blocked, fun _ _ _ _ => tearDown_blocked, fun _ _ _ => enterLpStep_blocked,
    fun _ _ _ => exitLpStep_blocked, fun _ _ _ => writeStep_blocked, fun _ _ _ => readStep_blocked,
    fun _ _ => irqStep_blocked⟩

/-! ## A transition that waits for the lock (rules R71, R132) -/

/-- A burst whose next micro-step is not enabled saves its latches and changes nothing else. -/
theorem burst_of_blocked {F : Type} {a : Nat} {wrap : F → Frame} {micro : Nat → F → State → Micro F} {f : F} {s : State}
    (h : micro a f s = .blocked) (n : Nat) : burst a wrap micro n f s = .next (s.saveTop a (wrap f)) := by
  cases n with
  | zero => rfl
  | succ n => rw [burst_succ, h]

/-- Latches saved for an operation that an `Idle` agent has just accepted. -/
theorem saveTop_of_accepted {s : State} {c : Caller} (hidle : s.idleAs c) (fr fr' : Frame) :
    State.saveTop { s with callers := s.acceptedCallers c fr } s.cur fr' =
      { s with callers := s.acceptedCallers c fr' } := by
  obtain ⟨hlt, -⟩ := List.getElem?_eq_some_iff.mp hidle.1
  simp [State.saveTop, State.modifyCaller, State.setCallers, State.acceptedCallers, hlt]

/-- An `Idle` agent whose operation comes to stand at the latches `g` without changing the state changes nothing but its own
place. -/
theorem conduct_of_waiting {F : Type} {s : State} {c : Caller} (hidle : s.idleAs c) (hq : 0 < s.quantum) {f g : F}
    {view : Frame → Option F} {wrap : F → Frame} {micro : Nat → F → State → Micro F}
    (hwaits : ∀ n u, u.lock = s.lock → burst s.cur wrap micro (n + 1) f u = .next (u.saveTop s.cur (wrap g))) :
    conduct none (some f) view wrap micro s = .next { s with callers := s.acceptedCallers c (wrap g) } := by
  obtain ⟨n, hn⟩ : ∃ n, s.quantum = n + 1 := ⟨s.quantum - 1, by omega⟩
  rw [conduct_of_idle hidle _ _ _ _ hn, hwaits n { s with callers := s.acceptedCallers c (wrap f) } rfl,
    saveTop_of_accepted hidle]

section
variable (a : Nat) {s : State} {b : Nat} (hheld : s.lock = .held b) (n : Nat)
include hheld

/-- A bring-up waits at `BU.1`. -/
theorem bringUp_waits (wrap : BuFrame → Frame) (goal : LinkState) :
    burst a wrap (bringUp goal) (n + 1) .start s =
      .next (s.saveTop a (wrap ⟨⟨.bu1, .ok⟩, goal, .init, false, .ok, false⟩)) := by
  simp only [burst_succ, BuFrame.start, bringUp]
  exact burst_of_blocked (lockThen_of_held a hheld _) n

/-- A teardown waits at `TD.1`. -/
theorem tearDown_waits (wrap : TdFrame → Frame) (goal : LinkState) :
    burst a wrap (tearDown goal) (n + 1) .start s =
      .next (s.saveTop a (wrap ⟨⟨.td1, .ok⟩, goal, .init, false⟩)) := by
  simp only [burst_succ, TdFrame.start, tearDown]
  exact burst_of_blocked (lockThen_of_held a hheld _) n

/-- An ENTER_LP waits at `EL.1`. -/
theorem enterLp_waits : burst a .enterLp enterLpStep n .start s = .next (s.saveTop a (.enterLp .start)) :=
  burst_of_blocked (lockThen_of_held a hheld _) n

/-- An EXIT_LP waits at `XL.1`. -/
theorem exitLp_waits : burst a .exitLp exitLpStep n .start s = .next (s.saveTop a (.exitLp .start)) :=
  burst_of_blocked (lockThen_of_held a hheld _) n

end

/-- With the capability DOZE is a bring-up (rules R130, R158). -/
theorem exec_doze_of_hasDoze {s : State} (h : s.par.hasDoze = true) :
    exec .doze s = conduct none (some .start) Frame.asDoze Frame.doze (bringUp .doze) s := by
  simp [exec, execDoze, h]

/-- With the capability DOZE_SUSPEND is a teardown (rules R130, R160). -/
theorem exec_dozeSuspend_of_hasDoze {s : State} (h : s.par.hasDoze = true) :
    exec .dozeSuspend s =
      conduct none (some .start) Frame.asDozeSuspend Frame.dozeSuspend (tearDown .dozeSuspend) s := by
  simp [exec, execDozeSuspend, h]

/-- Settles O35: each transition comes to its `lock()`, which is not enabled. -/
theorem transitionWaitsForTheLock : Obligations.TransitionWaitsForTheLock := by
  intro i s c b htrans hidle hheld hdoze hq
  have hpos : 0 < s.quantum := by omega
  have hlock {u : State} (hu : u.lock = s.lock) : u.lock = .held b := hu.trans hheld
  cases i with
  | enable => exact ⟨_, rfl, rfl, conduct_of_waiting hidle hpos fun n _ hu => bringUp_waits _ (hlock hu) n _ .on⟩
  | disable => exact ⟨_, rfl, rfl, conduct_of_waiting hidle hpos fun n _ hu => tearDown_waits _ (hlock hu) n _ .off⟩
  | enterLp => exact ⟨_, rfl, rfl, conduct_of_waiting hidle hpos fun n _ hu => enterLp_waits _ (hlock hu) (n + 1)⟩
  | exitLp => exact ⟨_, rfl, rfl, conduct_of_waiting hidle hpos fun n _ hu => exitLp_waits _ (hlock hu) (n + 1)⟩
  | doze =>
    exact ⟨_, rfl, rfl, (exec_doze_of_hasDoze hdoze).trans
      (conduct_of_waiting hidle hpos fun n _ hu => bringUp_waits _ (hlock hu) n _ .doze)⟩
  | dozeSuspend =>
    exact ⟨_, rfl, rfl, (exec_dozeSuspend_of_hasDoze hdoze).trans
      (conduct_of_waiting hidle hpos fun n _ hu => tearDown_waits _ (hlock hu) n _ .dozeSuspend)⟩
  | write | read | reserved6 | reserved7 | reservedA | reservedB | reservedC | reservedD | reservedE | reservedF =>
    cases htrans

end Sys2Proof.Machine
end

section
/-! PROOFS. The fields of a descriptor, and the decoder and the encoder as inverses (O1 to O4). -/

namespace Sys2Proof

open Machine

/-! ## The words of a descriptor and their fields (rule R91) -/

theorem Request.req0_eq (r : Request) : r.req0 = r.rest ++ r.op := by
  have h : r.rest ++ r.op = r.req0.extractLsb' 0 32 := BitVec.extractLsb'_append_extractLsb'_eq_extractLsb' rfl
  exact BitVec.extractLsb'_eq_self.symm.trans h.symm

theorem Request.req1_eq (r : Request) : r.req1 = r.cap ++ r.len := by
  have h : r.cap ++ r.len = r.req1.extractLsb' 0 32 := BitVec.extractLsb'_append_extractLsb'_eq_extractLsb' rfl
  exact BitVec.extractLsb'_eq_self.symm.trans h.symm

theorem Request.req0_eq_fields (r : Request) : r.req0 = r.d1 ++ r.d0 ++ r.ty ++ (r.rsv0 ++ r.op) := by
  have hlow : r.rsv0 ++ r.op = r.req0.extractLsb' 0 8 := BitVec.extractLsb'_append_extractLsb'_eq_extractLsb' rfl
  have hdata : r.d1 ++ r.d0 = r.req0.extractLsb' 16 16 := BitVec.extractLsb'_append_extractLsb'_eq_extractLsb' rfl
  have hhigh : r.req0.extractLsb' 16 16 ++ r.ty = r.req0.extractLsb' 8 24 :=
    BitVec.extractLsb'_append_extractLsb'_eq_extractLsb' rfl
  have hall : r.req0.extractLsb' 8 24 ++ r.req0.extractLsb' 0 8 = r.req0.extractLsb' 0 32 :=
    BitVec.extractLsb'_append_extractLsb'_eq_extractLsb' rfl
  rw [hlow, hdata, hhigh, hall, BitVec.extractLsb'_eq_self]

section
variable (buf : Option BufHandle)

theorem Request.rest_append (rest : BitVec 28) (op : BitVec 4) (w : Word) : Request.rest ⟨rest ++ op, w, buf⟩ = rest :=
  BitVec.extractLsb'_append_eq_left

theorem Request.len_append (w : Word) (hi lo : Half) : Request.len ⟨w, hi ++ lo, buf⟩ = lo :=
  BitVec.extractLsb'_append_eq_right

theorem Request.cap_append (w : Word) (hi lo : Half) : Request.cap ⟨w, hi ++ lo, buf⟩ = hi :=
  BitVec.extractLsb'_append_eq_left

variable (b0 b1 b2 b3 : Byte) (w : Word)

theorem Request.rsv0_append : Request.rsv0 ⟨b3 ++ b2 ++ b1 ++ b0, w, buf⟩ = b0.extractLsb' 4 4 :=
  BitVec.extractLsb'_append_eq_of_add_le (by decide)

theorem Request.ty_append : Request.ty ⟨b3 ++ b2 ++ b1 ++ b0, w, buf⟩ = b1 :=
  (BitVec.extractLsb'_append_eq_of_le (by decide)).trans BitVec.extractLsb'_append_eq_right

theorem Request.d0_append : Request.d0 ⟨b3 ++ b2 ++ b1 ++ b0, w, buf⟩ = b2 :=
  (BitVec.extractLsb'_append_eq_of_le (by decide)).trans
    ((BitVec.extractLsb'_append_eq_of_le (by decide)).trans BitVec.extractLsb'_append_eq_right)

theorem Request.d1_append : Request.d1 ⟨b3 ++ b2 ++ b1 ++ b0, w, buf⟩ = b3 :=
  (BitVec.extractLsb'_append_eq_of_le (by decide)).trans
    ((BitVec.extractLsb'_append_eq_of_le (by decide)).trans BitVec.extractLsb'_append_eq_left)

end

/-! ## What the decoder reads, by the operation code (rules R92, R93) -/

/-- The fields that an operation without operands leaves zero (rule R91). -/
def Request.plain (r : Request) : Prop := r.rsv0 = 0 ∧ r.ty = 0 ∧ r.d0 = 0 ∧ r.d1 = 0 ∧ r.len = 0 ∧ r.cap = 0

theorem decodePlain_eq_ok {r : Request} {i j : Instr} : decodePlain r i = .ok j ↔ r.plain ∧ i = j := by
  unfold decodePlain Request.plain
  split_ifs <;> simp_all

theorem decodePlain_eq_error {r : Request} {i : Instr} : (∃ e, decodePlain r i = .error e) ↔ ¬ r.plain := by
  unfold decodePlain Request.plain
  split_ifs <;> simp_all

theorem decodeWrite_eq_ok {r : Request} {j : Instr} :
    decodeWrite r = .ok j ↔ (r.rsv0 = 0 ∧ r.cap = 0) ∧ .write r.ty r.d0 r.d1 r.len r.buf = j := by
  unfold decodeWrite
  split_ifs <;> simp_all

theorem decodeWrite_eq_error {r : Request} : (∃ e, decodeWrite r = .error e) ↔ r.rsv0 ≠ 0 ∨ r.cap ≠ 0 := by
  unfold decodeWrite
  split_ifs <;> simp_all

theorem decodeRead_eq_ok {r : Request} {j : Instr} :
    decodeRead r = .ok j ↔ (r.rsv0 = 0 ∧ r.d1 = 0) ∧ .read r.ty r.d0 r.len r.cap r.buf = j := by
  unfold decodeRead
  split_ifs <;> simp_all

theorem decodeRead_eq_error {r : Request} : (∃ e, decodeRead r = .error e) ↔ r.rsv0 ≠ 0 ∨ r.d1 ≠ 0 := by
  unfold decodeRead
  split_ifs <;> simp_all

theorem decode_write {r : Request} (h : r.op = 0x8) : decode r = decodeWrite r := by simp [decode, h]

theorem decode_read {r : Request} (h : r.op = 0x9) : decode r = decodeRead r := by simp [decode, h]

/-! ## Decoding what was encoded -/

theorem encodeReserved_op (op : BitVec 4) (rest : BitVec 28) (req1 : Word) : (encodeReserved op rest req1).op = op :=
  Laws.OpcodeField.low_of_append rest op

theorem encodeReserved_rest (op : BitVec 4) (rest : BitVec 28) (req1 : Word) :
    (encodeReserved op rest req1).rest = rest := Request.rest_append none rest op req1

/-- Settles O2: the operation code is in its place, and so is every operand. -/
theorem decodeOfEncode : Obligations.DecodeOfEncode := by
  intro i
  cases i with
  | enable | disable | enterLp | exitLp | doze | dozeSuspend => rfl
  | write ty d0 d1 len buf =>
    rw [decode_write (Laws.OpcodeField.write ty d0 d1 len buf), decodeWrite_eq_ok]
    simp only [encode, Request.rsv0_append, Request.ty_append, Request.d0_append, Request.d1_append, Request.len_append,
      Request.cap_append]
    decide
  | read ty addr maxLen cap buf =>
    rw [decode_read (Laws.OpcodeField.read ty addr maxLen cap buf), decodeRead_eq_ok]
    simp only [encode, Request.rsv0_append, Request.ty_append, Request.d0_append, Request.d1_append, Request.len_append,
      Request.cap_append]
    decide
  | reserved6 rest req1 | reserved7 rest req1 | reservedA rest req1 | reservedB rest req1 | reservedC rest req1
  | reservedD rest req1 | reservedE rest req1 | reservedF rest req1 =>
    simp only [encode, decode, encodeReserved_op, encodeReserved_rest]
    rfl

/-- Settles O1: each word is the one that `encode` gives its operation. -/
theorem specWordsDecode : Obligations.SpecWordsDecode :=
  ⟨decodeOfEncode .enable, decodeOfEncode .disable, decodeOfEncode (.write 0x05 0x29 0x00 0 none),
    fun base => decodeOfEncode (.write 0x39 0x00 0x00 5 (some ⟨base, 5⟩)),
    fun base => decodeOfEncode (.read 0x06 0x04 3 4 (some ⟨base, 4⟩))⟩

/-! ## Encoding what was decoded -/

theorem Request.op_of_toNat {r : Request} {n : Nat} (h : r.op.toNat = n) : r.op = BitVec.ofNat 4 n := by
  rw [← h, BitVec.ofNat_toNat, BitVec.setWidth_eq]

/-- The words of a descriptor of an operation without operands. -/
theorem encodePlain_words {r : Request} (hplain : r.plain) {op : BitVec 4} (hop : r.op = op) :
    (encodePlain op).req0 = r.req0 ∧ (encodePlain op).req1 = r.req1 := by
  obtain ⟨hrsv0, hty, hd0, hd1, hlen, hcap⟩ := hplain
  have hzero : ∀ op : BitVec 4, (0 : BitVec 28) ++ op = (0 : Byte) ++ (0 : Byte) ++ (0 : Byte) ++ ((0 : BitVec 4) ++ op) := by
    decide
  rw [r.req0_eq_fields, r.req1_eq, hrsv0, hty, hd0, hd1, hlen, hcap, hop]
  exact ⟨hzero op, rfl⟩

theorem encodeReserved_words {r : Request} {op : BitVec 4} (hop : r.op = op) :
    (encodeReserved op r.rest r.req1).req0 = r.req0 ∧ (encodeReserved op r.rest r.req1).req1 = r.req1 := by
  rw [r.req0_eq, hop]
  exact ⟨rfl, rfl⟩

/-- Settles O3: both words are put together again from their fields, those that must be zero included. -/
theorem encodeOfDecode : Obligations.EncodeOfDecode := by
  intro r i h
  unfold decode at h
  split at h
  case h_1 hop | h_2 hop | h_3 hop | h_4 hop | h_5 hop | h_6 hop =>
    obtain ⟨hplain, rfl⟩ := decodePlain_eq_ok.mp h
    obtain ⟨h0, h1⟩ := encodePlain_words hplain (Request.op_of_toNat hop)
    exact ⟨h0, h1, by simp [Instr.opcode]⟩
  case h_7 hop | h_8 hop | h_11 hop | h_12 hop | h_13 hop | h_14 hop | h_15 hop =>
    cases h
    obtain ⟨h0, h1⟩ := encodeReserved_words (Request.op_of_toNat hop)
    exact ⟨h0, h1, by simp [Instr.opcode]⟩
  case h_9 hop =>
    obtain ⟨⟨hrsv0, hcap⟩, rfl⟩ := decodeWrite_eq_ok.mp h
    rw [r.req0_eq_fields, r.req1_eq, hrsv0, hcap, Request.op_of_toNat hop]
    exact ⟨rfl, rfl, fun _ => rfl⟩
  case h_10 hop =>
    obtain ⟨⟨hrsv0, hd1⟩, rfl⟩ := decodeRead_eq_ok.mp h
    rw [r.req0_eq_fields, r.req1_eq, hrsv0, hd1, Request.op_of_toNat hop]
    exact ⟨rfl, rfl, fun _ => rfl⟩
  case h_16 =>
    cases h
    have hop : r.op.toNat = 0xF := by
      have hlt := r.op.isLt
      simp only [imp_false] at *
      omega
    obtain ⟨h0, h1⟩ := encodeReserved_words (Request.op_of_toNat hop)
    exact ⟨h0, h1, by simp [Instr.opcode]⟩

/-! ## Which descriptors are malformed (rules R93, R298) -/

theorem Request.op_eq_iff {r : Request} {n : Nat} (hn : n < 16) : r.op = BitVec.ofNat 4 n ↔ r.op.toNat = n := by
  rw [← BitVec.toNat_inj, BitVec.toNat_ofNat, Nat.mod_eq_of_lt hn]

/-- The decoder rejects exactly a nonzero field that the operation of the code leaves zero. -/
theorem decode_eq_error {r : Request} :
    (∃ e, decode r = .error e) ↔
      (r.op.toNat ≤ 5 ∧ ¬ r.plain) ∨ (r.op.toNat = 8 ∧ (r.rsv0 ≠ 0 ∨ r.cap ≠ 0)) ∨
        (r.op.toNat = 9 ∧ (r.rsv0 ≠ 0 ∨ r.d1 ≠ 0)) := by
  unfold decode
  split
  case h_1 hop | h_2 hop | h_3 hop | h_4 hop | h_5 hop | h_6 hop => simp [decodePlain_eq_error, hop]
  case h_7 hop | h_8 hop | h_11 hop | h_12 hop | h_13 hop | h_14 hop | h_15 hop => simp [hop]
  case h_9 hop => simp [decodeWrite_eq_error, hop]
  case h_10 hop => simp [decodeRead_eq_error, hop]
  case h_16 =>
    simp only [imp_false] at *
    have hcode : ¬ r.op.toNat ≤ 5 := by omega
    simp [*]

/-- An implementation reads what the decoder reads, where the code is not reserved to it by the capability. -/
theorem decodeRequest_eq_decode {p : Params} {r : Request} (h : r.op.toNat = 4 ∨ r.op.toNat = 5 → p.hasDoze = true) :
    decodeRequest p r = decode r := by
  unfold decodeRequest
  cases decode r with
  | ok i => rfl
  | error e =>
    dsimp only
    split
    case h_1 hop hp => exact absurd (h (.inl hop)) (by simp [hp])
    case h_2 hop hp => exact absurd (h (.inr hop)) (by simp [hp])
    case h_3 => rfl

/-- Settles O4: without the capability 0x4 and 0x5 are never rejected; every other code is read by `decode`. -/
theorem malformedExactly : Obligations.MalformedExactly := by
  intro p r
  have hplain : ¬ r.plain ↔ r.rsv0 ≠ 0 ∨ r.ty ≠ 0 ∨ r.d0 ≠ 0 ∨ r.d1 ≠ 0 ∨ r.len ≠ 0 ∨ r.cap ≠ 0 := by
    simp only [Request.plain, not_and_or, ne_eq]
  have hwrite : r.op = 0x8 ↔ r.op.toNat = 8 := Request.op_eq_iff (by decide)
  have hread : r.op = 0x9 ↔ r.op.toNat = 9 := Request.op_eq_iff (by decide)
  refine ⟨?_, fun hdoze => ?_, fun i => decodeRequest_of_ok⟩
  · rw [← hplain, hwrite, hread]
    by_cases hcode : r.op.toNat = 4 ∨ r.op.toNat = 5 → p.hasDoze = true
    · rw [decodeRequest_eq_decode hcode, decode_eq_error]
      have hfour : r.op.toNat ≤ 5 ↔ r.op.toNat ≤ 3 ∨ (r.op.toNat ≤ 5 ∧ p.hasDoze = true) := by
        cases hp : p.hasDoze <;> simp [hp] at hcode ⊢ <;> omega
      rw [← hfour]
    · obtain ⟨hop, hdoze⟩ := Classical.not_imp.mp hcode
      have hdoze : p.hasDoze = false := by simpa using hdoze
      obtain ⟨h4, h5⟩ := decodeRequest_of_reserved (r := r) hdoze
      have hok : ¬ ∃ e, decodeRequest p r = .error e := by
        rcases hop with hop | hop
        · simp [h4 hop]
        · simp [h5 hop]
      simp only [hok, hdoze, Bool.false_eq_true, and_false, or_false, false_iff]
      omega
  · obtain ⟨h4, h5⟩ := decodeRequest_of_reserved (r := r) hdoze
    exact ⟨fun h => h4 (congrArg _ h), fun h => h5 (congrArg _ h)⟩

end Sys2Proof
end

section
/-! PROOFS. The fields of the result word (O5), what an operation without meaning answers (O36), transitions carried through
(O30, O31), a request at an agent's port (O9) and the handler's actions (O57). -/

namespace Sys2Proof.Machine

/-! ## The result word (rule R95) -/

/-- The fields of a word laid out as RES is. -/
theorem resultWord_fields (count : Half) (err : Bool) (status : BitVec 4) :
    let w : Word := count ++ ((0 : BitVec 7) ++ (BitVec.ofBool err ++ ((0 : BitVec 4) ++ status)))
    w.extractLsb' 0 4 = status ∧ w.extractLsb' 4 4 = 0 ∧ w.getLsbD 8 = err ∧ w.extractLsb' 9 7 = 0 ∧
      w.extractLsb' 16 16 = count := by
  refine ⟨?_, ?_, ?_, ?_, ?_⟩
  · exact (BitVec.extractLsb'_append_eq_of_add_le (by decide)).trans
      ((BitVec.extractLsb'_append_eq_of_add_le (by decide)).trans
        ((BitVec.extractLsb'_append_eq_of_add_le (by decide)).trans BitVec.extractLsb'_append_eq_right))
  · exact (BitVec.extractLsb'_append_eq_of_add_le (by decide)).trans
      ((BitVec.extractLsb'_append_eq_of_add_le (by decide)).trans
        ((BitVec.extractLsb'_append_eq_of_add_le (by decide)).trans BitVec.extractLsb'_append_eq_left))
  · refine (BitVec.getLsbD_append ..).trans ((BitVec.getLsbD_append ..).trans ((BitVec.getLsbD_append ..).trans ?_))
    simp
  · exact (BitVec.extractLsb'_append_eq_of_add_le (by decide)).trans BitVec.extractLsb'_append_eq_left
  · exact BitVec.extractLsb'_append_eq_left

/-- Settles O5: the word is laid out field by field, and each number is read off its table. -/
theorem resultWordFields : Obligations.ResultWordFields := by
  refine ⟨fun r => resultWord_fields r.count r.hasErr r.status, fun n => ?_, fun e => ?_, rfl, rfl, rfl, rfl, rfl, rfl, rfl,
    rfl, rfl, rfl, rfl, rfl, rfl⟩
  · have hcount : (Result.okCount (n.setWidth 17)).count = n := by simp [Result.count]
    have hlow : (0 : BitVec 7) ++ (BitVec.ofBool false ++ ((0 : BitVec 4) ++ (0 : BitVec 4))) = (0 : Half) := rfl
    rw [Result.word, hcount]
    exact congrArg (n ++ ·) hlow
  · show (0 : Half) ++ ((0 : BitVec 7) ++ (BitVec.ofBool true ++ ((0 : BitVec 4) ++ (3 : BitVec 4)))) = 0x00000103
    rfl

/-! ## Requests answered at acceptance (rules R93, R157) -/

/-- An operation with no frame to start with is answered `Unsupported` by an agent that accepts it, and nothing else is
done. -/
theorem exec_of_no_startFrame {i : Instr} {s : State} {c : Caller} (hc : s.callers[s.cur]? = some c)
    (hacc : c.accepts = true) (hnone : startFrame s.par i = none) :
    exec i s = .next { s with callers := s.answeredCallers c .unsupported } := by
  have hanswer : s.answerAtOnce s.cur .unsupported = { s with callers := s.answeredCallers c .unsupported } := by
    simp [State.answerAtOnce, State.modifyCaller, State.setCallers, State.answeredCallers, hc]
  cases i with
  | enable | disable | enterLp | exitLp | write | read => cases hnone
  | doze =>
    have hdoze : s.par.hasDoze = false := by simpa [startFrame] using hnone
    simp [exec, execDoze, conduct, hc, hacc, hdoze, admitThen_none, hanswer]
  | dozeSuspend =>
    have hdoze : s.par.hasDoze = false := by simpa [startFrame] using hnone
    simp [exec, execDozeSuspend, conduct, hc, hacc, hdoze, admitThen_none, hanswer]
  | reserved6 | reserved7 | reservedA | reservedB | reservedC | reservedD | reservedE | reservedF =>
    show answerUnsupported s = _
    simp [answerUnsupported, hc, hacc, hanswer]

theorem startFrame_of_isReserved (p : Params) {i : Instr} (h : isReserved i = true) : startFrame p i = none := by
  cases i with
  | enable | disable | enterLp | exitLp | doze | dozeSuspend | write | read => cases h
  | reserved6 | reserved7 | reservedA | reservedB | reservedC | reservedD | reservedE | reservedF => rfl

/-- A reserved code is read, whatever the other bits are, as an operation with no frame to start with. -/
theorem decodeRequest_of_reservedCode {p : Params} {r : Request} (h : isReservedCode p r.op = true) :
    ∃ i, decodeRequest p r = .ok i ∧ startFrame p i = none := by
  unfold isReservedCode at h
  split at h
  case h_1 hop | h_2 hop | h_3 hop | h_4 hop | h_5 hop | h_6 hop | h_7 hop | h_8 hop =>
    exact ⟨_, decodeRequest_of_ok (by simp only [decode, hop]; rfl), rfl⟩
  case h_9 hop =>
    have hdoze : p.hasDoze = false := by simpa using h
    exact ⟨_, (decodeRequest_of_reserved hdoze).1 hop, by simp [startFrame, hdoze]⟩
  case h_10 hop =>
    have hdoze : p.hasDoze = false := by simpa using h
    exact ⟨_, (decodeRequest_of_reserved hdoze).2 hop, by simp [startFrame, hdoze]⟩
  case h_11 => cases h

/-- Settles O36: an operation with no frame to start with, and a word whose code is reserved. -/
theorem reservedCodesAnswerUnsupported : Obligations.ReservedCodesAnswerUnsupported := by
  refine ⟨fun i s c hi hc hacc => exec_of_no_startFrame hc hacc (startFrame_of_isReserved _ hi), ?_⟩
  intro s a more later c r hf hturn hc hacc hport hcode
  obtain ⟨i, hi, hnone⟩ := decodeRequest_of_reservedCode hcode
  rw [(stepRunsTheDecodedOperation s a more later hf hturn).1 c r i hc hacc hport hi]
  exact exec_of_no_startFrame (s := (s.setTurns later s.turnDraws).focus a more) hc hacc hnone

/-! ## Transitions carried through (rules R133 to R147) -/

theorem exec_of_idle_without_frame {i : Instr} {s : State} {c : Caller} (hidle : s.idleAs c)
    (hnone : startFrame s.par i = none) : exec i s = .next { s with callers := s.answeredCallers c .unsupported } :=
  exec_of_no_startFrame hidle.1 (by simp [Caller.accepts, hidle.2]) hnone

/-- Settles O30: a bring-up carried through, or a reserved code. -/
theorem bringUpCompletes : Obligations.BringUpCompletes := by
  intro s c hidle hfree hq
  refine ⟨bringUp_completes .on hidle hfree hq _ _, ?_⟩
  split
  case isTrue hdoze => exact (exec_doze_of_hasDoze hdoze).trans (bringUp_completes .doze hidle hfree hq _ _)
  case isFalse hdoze => exact exec_of_idle_without_frame hidle (if_neg hdoze)

/-- Settles O31: a teardown carried through, or a reserved code. -/
theorem tearDownCompletes : Obligations.TearDownCompletes := by
  intro s c hidle hfree hbusy hq
  refine ⟨tearDown_completes .off hidle hfree hbusy hq _ _, ?_⟩
  split
  case isTrue hdoze =>
    exact (exec_dozeSuspend_of_hasDoze hdoze).trans (tearDown_completes .dozeSuspend hidle hfree hbusy hq _ _)
  case isFalse hdoze => exact exec_of_idle_without_frame hidle (if_neg hdoze)

/-! ## A request at an agent's port (rules R90, R298) -/

/-- Settles O9: both are the one test of `presentRequest`. -/
theorem secondRequestRefused : Obligations.SecondRequestRefused := by
  intro s a r c hc
  have hrun : runTurn (.request a r) s = presentRequest a r s := rfl
  refine ⟨fun hport hrest => ?_, fun hbusy => ?_⟩
  · simp [hrun, presentRequest, hc, hport, hrest, State.modifyCaller, State.setCallers]
  · have hno : (c.port.isNone && c.atRest) = false := by
      rcases hbusy with hport | hrest
      · simp [Option.isNone_eq_false_iff.mpr hport] 
      · simp [hrest]
    simp [hrun, presentRequest, hc, hno]

/-! ## The handler's actions (rules R264 to R270) -/

/-- `H.3` disarms the watchdog on header-FIFO-empty (rule R264). -/
theorem irqTurn_disarms {s : State} (h3 : s.irq.label = .h3) :
    irqTurn s = .next
      { s with wd := if pendingBit s.irq.p 0 then s.disarmedWd else s.wd, irq := ⟨.h4, s.irq.p⟩ } := by
  simp only [irqTurn, irqStep, h3]
  split <;> rfl

/-- `H.4` fires the header-empty signal on header-FIFO-empty (rule R264). -/
theorem irqTurn_fires_ph {s : State} (h4 : s.irq.label = .h4) :
    irqTurn s = .next
      { s with sigPh := if pendingBit s.irq.p 0 then ⟨true⟩ else s.sigPh, irq := ⟨.h5, s.irq.p⟩ } := by
  simp only [irqTurn, irqStep, h4]
  split <;> rfl

/-- `H.5` fires the read-ready signal on read-data-done (rule R265). -/
theorem irqTurn_fires_rd {s : State} (h5 : s.irq.label = .h5) :
    irqTurn s = .next
      { s with sigRd := if pendingBit s.irq.p 1 then ⟨true⟩ else s.sigRd, irq := ⟨.h6, s.irq.p⟩ } := by
  simp only [irqTurn, irqStep, h5]
  split <;> rfl

/-- `H.6` dumps on RX-ECC-error (rule R267). -/
theorem irqTurn_dumps {s : State} (h6 : s.irq.label = .h6) (hpd : s.pdActive = true) :
    irqTurn s = .next
      { s with
        hist := s.hist ++ if pendingBit s.irq.p 3 then [.dump .rxEccError] else []
        irq := ⟨.h7, s.irq.p⟩ } := by
  cases hp : pendingBit s.irq.p 3 with
  | true =>
    simp only [irqTurn, irqStep, h6, hp, dump_of_power hpd, if_true]
    rfl
  | false =>
    simp only [irqTurn, irqStep, h6, hp, Bool.false_eq_true, if_false, List.append_nil]
    rfl

/-- `H.8` clears the whole latched mask (rule R270). -/
theorem irqTurn_clears {s : State} (h8 : s.irq.label = .h8) (hpd : s.pdActive = true) :
    irqTurn s = .next { s with hist := s.hist ++ [.clearInterrupt s.irq.p], irq := ⟨.h9, s.irq.p⟩ } := by
  simp only [irqTurn, irqStep, h8, reg_of_power hpd]
  rfl

/-- Settles O57: each action is one label of the handler run. -/
theorem handlerActions : Obligations.HandlerActions := by
  intro s
  refine ⟨fun h3 hp => ?_, fun h4 hp => ?_, fun h5 hp => ?_, fun h5 hp => ?_, fun h6 hp hpd => ?_, irqTurn_clears⟩
  · simpa only [hp, if_true] using irqTurn_disarms h3
  · simpa only [hp, if_true] using irqTurn_fires_ph h4
  · simpa only [hp, if_true] using irqTurn_fires_rd h5
  · simpa only [hp, Bool.false_eq_true, if_false] using irqTurn_fires_rd h5
  · simpa only [hp, if_true] using irqTurn_dumps h6 hpd

end Sys2Proof.Machine
end

section
/-! PROOFS. READ drains a response packet of any class that raises no error (O52). -/

namespace Sys2Proof.Machine

/-! ## Going on with a READ in flight -/

/-- An operation in flight that is not inside a panel callback goes on with its micro-steps. -/
theorem exec_read_of_runs {s : State} {c : Caller} {f : ReadFrame} {rest : List Frame} (h : s.runs c (.read f) rest) :
    exec (Frame.read f).instr s = burst s.cur .read readStep (s.quantum + 1) f s := by
  obtain ⟨hc, hstack, hacc⟩ := h
  show conduct _ _ _ _ _ s = _
  simp [conduct, hc, hacc, hstack, Frame.asRead]

/-- The operation in flight returns, and the one under it is left. -/
theorem deliver_of_runs {s u : State} {c : Caller} {fr : Frame} {rest : List Frame} (h : s.runs c fr rest)
    (hu : u.callers = s.callers) (r : Result) : u.deliver s.cur r = { u with callers := s.returnedCallers c rest r } := by
  obtain ⟨hc, hstack, -⟩ := h
  simp [State.deliver, State.modifyCaller, State.setCallers, State.returnedCallers, hu, hc, hstack]

/-- A register primitive whose answer is listed (rule R64). -/
theorem regAsk_of_listed {F α : Type} {s : State} (hpd : s.pdActive = true) {x : Nat} {later : List Nat}
    (hans : s.answers = x :: later) (read : Nat → α) (e : α → Event) (k : α → State → Micro F) :
    regAsk s read e k = k (read x) { s with answers := later, hist := s.hist ++ [e (read x)] } := by
  obtain ⟨hx, hs⟩ := answer_of_cons hans
  rw [regAsk_of_power hpd, hx, hs]
  rfl

/-! ## Bytes received (rules R208, R213) -/

/-- How many of the bytes received are kept. -/
def keptCount (cap : Half) (bytes : List Byte) : BitVec 17 := BitVec.ofNat 17 (min bytes.length cap.toNat)

theorem keptCount_toNat (cap : Half) (bytes : List Byte) : (keptCount cap bytes).toNat = min bytes.length cap.toNat := by
  have := cap.isLt
  rw [keptCount, BitVec.toNat_ofNat]
  omega

/-- One more byte is counted if it fits. -/
theorem keptCount_append_one (cap : Half) (bytes : List Byte) (v : Byte) :
    keptCount cap (bytes ++ [v]) = if bytes.length < cap.toNat then keptCount cap bytes + 1 else keptCount cap bytes := by
  have hlen : (bytes ++ [v]).length = bytes.length + 1 := by simp
  unfold keptCount
  split
  · rw [show min (bytes ++ [v]).length cap.toNat = min bytes.length cap.toNat + 1 by omega, BitVec.ofNat_add]
    rfl
  · rw [show min (bytes ++ [v]).length cap.toNat = min bytes.length cap.toNat by omega]

/-- One more byte is stored behind the others if it fits. -/
theorem storeBytes_append_one (mem : List Host.Cell) (out : Option BufHandle) (cap : Nat) (bytes : List Byte) (v : Byte) :
    storeBytes mem out cap (bytes ++ [v]) =
      if bytes.length < cap then Memory.write (storeBytes mem out cap bytes) (bufAddr out bytes.length) v
      else storeBytes mem out cap bytes := by
  unfold storeBytes
  split
  case isTrue h =>
    rw [List.take_of_length_le (by simp; omega), List.take_of_length_le (by omega)]
    simp [List.zipIdx_append]
  case isFalse h => rw [List.take_append_of_le_length (by omega)]

/-- The bytes of a long response, word by word (rule R214). -/
theorem responseBytes_cons (x : Nat) (ws : List Nat) (cnt : Nat) :
    responseBytes (x :: ws) cnt = (List.range (min 4 cnt)).map (byteOf (asWord x)) ++ responseBytes ws (cnt - 4) := by
  have hrange : List.range cnt = List.range (min 4 cnt) ++ (List.range (cnt - 4)).map (min 4 cnt + ·) := by
    rw [← List.range_add]
    congr 1
    omega
  have hmin (i : Nat) (hi : i < cnt - 4) : min 4 cnt + i = i + 4 := by omega
  rw [responseBytes, hrange, List.map_append, List.map_map, responseBytes]
  congr 1
  · refine List.map_congr_left fun i hi => ?_
    have hi : i < 4 := by
      have := List.mem_range.mp hi
      omega
    simp [Nat.div_eq_of_lt hi, Nat.mod_eq_of_lt hi]
  · refine List.map_congr_left fun i hi => ?_
    simp [hmin i (List.mem_range.mp hi)]

/-! ## Sections of READ's drain (rules R207 to R216) -/

/-- The latches of a READ `f` at the label `l` of its drain, once these bytes have been received. -/
def ReadFrame.draining (f : ReadFrame) (l : RLabel) (bytes : List Byte) (w v : Word) (cnt : Half) (j b : Nat) : ReadFrame :=
  { f with ctl := ⟨l, f.ctl.res⟩, n := keptCount f.cap bytes, w := w, v := v, cnt := cnt, j := j, b := b }

/-- `s` once these bytes have been received for a READ `f`, the memory being `mem` before the first of them, with these events
since and these answers left. -/
def State.receive (s : State) (f : ReadFrame) (mem : List Host.Cell) (bytes : List Byte) (events : List Event)
    (later : List Nat) : State :=
  { s with mem := storeBytes mem f.out f.cap.toNat bytes, hist := s.hist ++ events, answers := later }

@[simp] theorem State.receive_receive (s : State) (f : ReadFrame) (mem : List Host.Cell) (b b' : List Byte)
    (es es' : List Event) (l l' : List Nat) :
    (s.receive f mem b es l).receive f mem b' es' l' = s.receive f mem b' (es ++ es') l' := by
  simp [State.receive]

section
variable (a n : Nat) (f : ReadFrame) {s : State} {mem : List Host.Cell} {bytes : List Byte}
  (hmem : s.mem = storeBytes mem f.out f.cap.toNat bytes)
include hmem

/-- Nothing received since. -/
theorem receive_nothing : s.receive f mem bytes [] s.answers = s := by
  simp [State.receive, ← hmem]

/-- `append` adds one byte to those received. -/
theorem appendByte_receives (l m : RLabel) (w v : Word) (cnt : Half) (j b : Nat) (x : Byte) :
    appendByte (f.draining l bytes w v cnt j b) x m s =
      .cont (f.draining m (bytes ++ [x]) w v cnt j b) (s.receive f mem (bytes ++ [x]) [] s.answers) := by
  by_cases hfits : bytes.length < f.cap.toNat
  · have hcount : (keptCount f.cap bytes).toNat = bytes.length := by rw [keptCount_toNat]; omega
    simp [appendByte, ReadFrame.draining, State.receive, ReadFrame.goto, Ctl.goto, hcount, hfits, State.memWrite,
      State.setMem, hmem, keptCount_append_one, storeBytes_append_one]
  · have hcount : (keptCount f.cap bytes).toNat = f.cap.toNat := by rw [keptCount_toNat]; omega
    simp [appendByte, ReadFrame.draining, State.receive, ReadFrame.goto, Ctl.goto, hcount, hfits, ← hmem,
      keptCount_append_one, storeBytes_append_one]

/-- `R.10p`, round after round: the next `k` bytes of a word (rule R214). -/
theorem readStep_appends (w v : Word) (cnt : Half) (j b k : Nat) (hk : b + k ≤ min 4 (cnt.toNat - 4 * j)) :
    burst a .read readStep (n + k) (f.draining .r10p bytes w v cnt j b) s =
      burst a .read readStep n (f.draining .r10p (bytes ++ (List.range' b k).map (byteOf v)) w v cnt j (b + k))
        (s.receive f mem (bytes ++ (List.range' b k).map (byteOf v)) [] s.answers) := by
  induction k generalizing b bytes s with
  | zero => simp [receive_nothing f hmem]
  | succ k ih =>
    have hb : b < min 4 (cnt.toNat - 4 * j) := by omega
    have hround : readStep a (f.draining .r10p bytes w v cnt j b) s =
        .cont (f.draining .r10p (bytes ++ [byteOf v b]) w v cnt j (b + 1))
          (s.receive f mem (bytes ++ [byteOf v b]) [] s.answers) :=
      (if_pos hb).trans (appendByte_receives f hmem .r10p .r10p w v cnt j (b + 1) (byteOf v b))
    rw [← Nat.add_assoc, burst_succ, hround]
    refine (ih (by rfl) (b + 1) (by omega)).trans ?_
    rw [State.receive_receive, List.range'_succ, List.map_cons, List.append_assoc, Nat.add_right_comm b 1 k]
    rfl

/-- `R.10m` to the end of `R.10p`: one data word is popped and its bytes are appended (rule R214). -/
theorem readStep_pops_word (hpd : s.pdActive = true) {x : Nat} {later : List Nat} (hans : s.answers = x :: later) (w v : Word)
    {cnt : Half} {j : Nat} (hj : 4 * j < cnt.toNat) (b : Nat) :
    let read := bytes ++ (List.range (min 4 (cnt.toNat - 4 * j))).map (byteOf (asWord x))
    burst a .read readStep (n + (min 4 (cnt.toNat - 4 * j) + 3)) (f.draining .r10m bytes w v cnt j b) s =
      burst a .read readStep n (f.draining .r10m read w (asWord x) cnt (j + 1) (min 4 (cnt.toNat - 4 * j)))
        (s.receive f mem read [.readRxFifo (asWord x)] later) := by
  intro read
  have hmore : j < wordsFor cnt.toNat := by unfold wordsFor; omega
  have hpop : burst a .read readStep (n + 1 + min 4 (cnt.toNat - 4 * j) + 2) (f.draining .r10m bytes w v cnt j b) s =
      burst a .read readStep (n + 1 + min 4 (cnt.toNat - 4 * j)) (f.draining .r10p bytes w (asWord x) cnt j 0)
        (s.receive f mem bytes [.readRxFifo (asWord x)] later) := by
    simp only [burst_succ, readStep, ReadFrame.draining, ReadFrame.goto, Ctl.goto, if_pos hmore, regAsk_of_listed hpd hans,
      State.receive, ← hmem]
  rw [show n + (min 4 (cnt.toNat - 4 * j) + 3) = n + 1 + min 4 (cnt.toNat - 4 * j) + 2 by omega, hpop,
    readStep_appends a (n + 1) f (by rfl) _ _ _ _ _ _ (by omega), State.receive_receive]
  simp only [burst_succ, readStep, ReadFrame.draining, ReadFrame.goto, Ctl.goto, Nat.zero_add, Nat.lt_irrefl, if_false,
    List.range_eq_range', read]
  rfl

/-- The loop `R.10m`: the data words of a long response, and what is left of its bytes (rule R214). -/
theorem readStep_pops_words (hpd : s.pdActive = true) {ws later : List Nat} (hans : s.answers = ws ++ later) (w v : Word)
    {cnt : Half} {j : Nat} (hlen : ws.length = wordsFor (cnt.toNat - 4 * j)) (b : Nat) :
    ∃ v' j' b', ∀ n,
      burst a .read readStep (n + (3 * ws.length + (cnt.toNat - 4 * j) + 1)) (f.draining .r10m bytes w v cnt j b) s =
        burst a .read readStep n (f.draining .r15 (bytes ++ responseBytes ws (cnt.toNat - 4 * j)) w v' cnt j' b')
          (s.receive f mem (bytes ++ responseBytes ws (cnt.toNat - 4 * j)) (ws.map fun x => .readRxFifo (asWord x)) later) := by
  induction ws generalizing s bytes v j b with
  | nil =>
    have hnone : cnt.toNat - 4 * j = 0 := by unfold wordsFor at hlen; simp at hlen; omega
    have hdone : ¬ j < wordsFor cnt.toNat := by unfold wordsFor; omega
    have hend : readStep a (f.draining .r10m bytes w v cnt j b) s = .cont (f.draining .r15 bytes w v cnt j b) s := by
      simp [readStep, ReadFrame.draining, ReadFrame.goto, Ctl.goto, hdone]
    have hsame : s.receive f mem bytes [] later = s := by simpa [hans] using receive_nothing f hmem
    refine ⟨v, j, b, fun n => ?_⟩
    simp [hnone, burst_succ, hend, responseBytes, hsame]
  | cons x ws ih =>
    have hj : 4 * j < cnt.toNat := by unfold wordsFor at hlen; simp at hlen; omega
    have hleft : cnt.toNat - 4 * j - 4 = cnt.toNat - 4 * (j + 1) := by omega
    have hwords : ws.length = wordsFor (cnt.toNat - 4 * (j + 1)) := by unfold wordsFor at *; simp at hlen; omega
    obtain ⟨v', j', b', h⟩ := ih (s := s.receive f mem _ [.readRxFifo (asWord x)] (ws ++ later)) (by rfl) hpd rfl (asWord x)
      hwords (min 4 (cnt.toNat - 4 * j))
    refine ⟨v', j', b', fun n => ?_⟩
    have hsteps : n + (3 * (x :: ws).length + (cnt.toNat - 4 * j) + 1) =
        n + (3 * ws.length + (cnt.toNat - 4 * (j + 1)) + 1) + (min 4 (cnt.toNat - 4 * j) + 3) := by simp; omega
    rw [hsteps, readStep_pops_word a _ f hmem hpd (later := ws ++ later) hans w v hj b, h, responseBytes_cons, hleft,
      State.receive_receive, List.append_assoc]
    rfl

/-- From `R.10` to `R.15`: the bytes of a packet that raises no error are appended (rules R211 to R214). -/
theorem readStep_appends_packet (hpd : s.pdActive = true) {k : RxPacket} (hsound : k.sound s.par) {later : List Nat}
    (hans : s.answers = k.data ++ later) (v : Word) (cnt : Half) (j b : Nat) :
    ∃ m ≤ 18 + 8 * k.data.length, ∃ v' cnt' j' b', ∀ n,
      burst a .read readStep (n + m) (f.draining (drainLabel (k.cls s.par)) bytes (asWord k.first) v cnt j b) s =
        burst a .read readStep n (f.draining .r15 (bytes ++ k.bytes s.par) (asWord k.first) v' cnt' j' b')
          (s.receive f mem (bytes ++ k.bytes s.par) (k.data.map fun x => .readRxFifo (asWord x)) later) := by
  unfold RxPacket.sound at hsound
  unfold RxPacket.bytes
  cases hcls : k.cls s.par with
  | ackErr | other => simp only [hcls] at hsound
  | eot =>
    simp only [hcls] at hsound
    rw [hsound, List.nil_append] at hans
    refine ⟨1, by omega, v, cnt, j, b, fun n => ?_⟩
    simp only [hsound, ← hans, List.append_nil, List.map_nil, receive_nothing f hmem]
    rfl
  | short1 =>
    simp only [hcls] at hsound
    rw [hsound, List.nil_append] at hans
    have hfirst : readStep a (f.draining .r10s bytes (asWord k.first) v cnt j b) s = _ :=
      appendByte_receives f hmem _ .r15 _ v cnt j b (rxData0 (asWord k.first))
    refine ⟨1, by omega, v, cnt, j, b, fun n => ?_⟩
    simp only [hsound, ← hans, drainLabel, burst_succ, hfirst, List.map_nil]
  | short2 =>
    simp only [hcls] at hsound
    rw [hsound, List.nil_append] at hans
    have hfirst : readStep a (f.draining .r10t bytes (asWord k.first) v cnt j b) s = _ :=
      appendByte_receives f hmem _ .r10t2 _ v cnt j b (rxData0 (asWord k.first))
    have hsecond : readStep a (f.draining .r10t2 (bytes ++ [rxData0 (asWord k.first)]) (asWord k.first) v cnt j b)
        (s.receive f mem (bytes ++ [rxData0 (asWord k.first)]) [] s.answers) = _ :=
      appendByte_receives f (by rfl) _ .r15 _ v cnt j b (rxData1 (asWord k.first))
    refine ⟨2, by omega, v, cnt, j, b, fun n => ?_⟩
    simp only [hsound, ← hans, drainLabel, burst_succ, hfirst, hsecond, List.map_nil, State.receive_receive,
      List.append_assoc]
    rfl
  | long =>
    simp only [hcls] at hsound
    obtain ⟨v', j', b', hwords⟩ := readStep_pops_words a f hmem hpd hans (asWord k.first) v
      (cnt := rxCount (asWord k.first)) (j := 0) hsound b
    refine ⟨3 * k.data.length + (rxCount (asWord k.first)).toNat + 1 + 1, by unfold wordsFor at hsound; omega,
      v', rxCount (asWord k.first), j', b', fun n => ?_⟩
    exact hwords n

/-- `R.9` to `R.15`: a packet that raises no error is popped and its bytes are appended (rules R209 to R214). -/
theorem readStep_drains_packet (hpd : s.pdActive = true) {k : RxPacket} (hsound : k.sound s.par) {later : List Nat}
    (hans : s.answers = k.first :: (k.data ++ later)) (w v : Word) (cnt : Half) (j b : Nat) :
    ∃ m ≤ 20 + 8 * k.data.length, ∃ v' cnt' j' b', ∀ n,
      burst a .read readStep (n + m) (f.draining .r9 bytes w v cnt j b) s =
        burst a .read readStep n (f.draining .r15 (bytes ++ k.bytes s.par) (asWord k.first) v' cnt' j' b')
          (s.receive f mem (bytes ++ k.bytes s.par) k.events later) := by
  have hpop (n : Nat) : burst a .read readStep (n + 2) (f.draining .r9 bytes w v cnt j b) s =
      burst a .read readStep n (f.draining (drainLabel (k.cls s.par)) bytes (asWord k.first) v cnt j b)
        (s.receive f mem bytes [.readRxFifo (asWord k.first)] (k.data ++ later)) := by
    simp only [burst_succ, readStep, ReadFrame.draining, ReadFrame.goto, Ctl.goto, regAsk_of_listed hpd hans, State.receive,
      ← hmem]
    rfl
  obtain ⟨m, hm, v', cnt', j', b', hrest⟩ := readStep_appends_packet a f
    (s := s.receive f mem bytes [.readRxFifo (asWord k.first)] (k.data ++ later)) (by rfl) hpd hsound (by rfl) v cnt j b
  refine ⟨m + 2, by omega, v', cnt', j', b', fun n => ?_⟩
  rw [← Nat.add_assoc, hpop]
  exact (hrest n).trans (by rw [State.receive_receive]; rfl)

end

section
variable (a n : Nat) (f : ReadFrame) {s : State}

/-- `R.6` to `R.8`: the wait is signaled, the lock is taken and the drain begins (rules R206 to R208). -/
theorem readStep_enters_drain (hl : f.ctl.label = .r6) (hrd : s.sigRd.done = true)
    (hnow : s.now < f.t0 + s.par.rdTimeout.val) (hfree : s.lock = .free) :
    burst a .read readStep (n + 4) f s =
      burst a .read readStep n
        (ReadFrame.draining { f with wres := .signaled, iter := s.par.rxFifoDepth.val } .r9 [] f.w f.v f.cnt f.j f.b)
        { s with lock := .held a, sigRd := ⟨false⟩ } := by
  have hwait := waitThen_of_signal hnow (F := ReadFrame)
  simp only [burst_succ, readStep, hl, hrd, hwait, ReadFrame.goto, Ctl.goto]
  simp [ReadFrame.draining, State.resetRd, State.setSigRd, lockThen, hfree, State.setLock, keptCount]

/-- `R.15` with the FIFO empty to `R.20`: the lock is released and the count of bytes kept is returned (rules R216,
R218). -/
theorem readStep_returns_count (hheld : s.lock = .held a) (hpd : s.pdActive = true) {later : List Nat}
    (hans : s.answers = 1 :: later) (bytes : List Byte) (w v : Word) (cnt : Half) (j b : Nat) :
    burst a .read readStep (n + 4) (f.draining .r15 bytes w v cnt j b) s =
      .next (State.deliver
        { s with lock := .free, answers := later, hist := s.hist ++ [.rxFifoEmpty true, .unblockLowPowerExit] } a
        (countOf f.cap bytes)) := by
  simp only [burst_succ, readStep, ReadFrame.draining, ReadFrame.goto, Ctl.goto, regAsk_of_listed hpd hans]
  simp [asBool, ReadFrame.finish, Ctl.finish, State.unlock, hheld, State.setLock, State.record, countOf, keptCount]

end

/-- Settles O52: the end of the wait, the words of the packet one by one, and the exit with the count. -/
theorem readDrainsOneResponse : Obligations.ReadDrainsOneResponse := by
  intro s c f rest k later hruns hl hrd hnow hfree hpd hsound hans hq
  have hlist : s.answers = k.first :: (k.data ++ 1 :: later) := by simp [hans, rxAnswers]
  obtain ⟨m, hm, v, cnt, j, b, hdrain⟩ := readStep_drains_packet s.cur
    { f with wres := .signaled, iter := s.par.rxFifoDepth.val } (s := { s with lock := .held s.cur, sigRd := ⟨false⟩ })
    (mem := s.mem) (bytes := []) (by simp [storeBytes]) hpd hsound hlist f.w f.v f.cnt f.j f.b
  obtain ⟨n, hn⟩ : ∃ n, s.quantum + 1 = n + 4 + m + 4 := ⟨s.quantum + 1 - (4 + m + 4), by
    simp [drainSteps] at hq
    omega⟩
  rw [exec_read_of_runs hruns, hn, readStep_enters_drain _ _ _ hl hrd hnow hfree, hdrain,
    readStep_returns_count _ _ _ (by rfl) (by exact hpd) (by rfl), deliver_of_runs hruns (by rfl)]
  simp [afterCommand, State.receive, rxEvents]

end Sys2Proof.Machine
end

section
/-! PROOFS. The micro-steps of a WRITE in ON, on its own or nested in a READ, and the requests of READ (O48). -/

namespace Sys2Proof.Machine

/-! ## Micro-steps in a row that all go on -/

/-- `m` micro-steps of an operation of agent `a`, if each goes on: the latches and the state they lead to. -/
def micros {F : Type} (a : Nat) (micro : Nat → F → State → Micro F) : Nat → F → State → Option (F × State)
  | 0, f, s => some (f, s)
  | m + 1, f, s =>
    match micro a f s with
    | .cont f' s' => micros a micro m f' s'
    | .blocked | .fault _ | .ret _ _ => none

section
variable {F : Type} {a : Nat} {micro : Nat → F → State → Micro F} {m : Nat} {f f' : F} {s s' : State}

theorem micros_trans (h : micros a micro m f s = some (f', s')) (n : Nat) :
    micros a micro (m + n) f s = micros a micro n f' s' := by
  induction m generalizing f s with
  | zero => cases h; rw [Nat.zero_add]
  | succ m ih =>
    rw [Nat.add_right_comm]
    simp only [micros] at h ⊢
    cases hm : micro a f s with
    | cont f1 s1 => simp only [hm] at h ⊢; exact ih h
    | blocked | fault | ret => simp [hm] at h

theorem micros_one (h : micro a f s = .cont f' s') : micros a micro 1 f s = some (f', s') := by
  simp only [micros, h]

/-- A burst goes on where micro-steps lead. -/
theorem burst_of_micros (h : micros a micro m f s = some (f', s')) {q : Nat} (hq : m ≤ q) (wrap : F → Frame) :
    burst a wrap micro q f s = burst a wrap micro (q - m) f' s' := by
  induction m generalizing q f s with
  | zero => cases h; rfl
  | succ m ih =>
    obtain ⟨q, rfl⟩ : ∃ p, q = p + 1 := ⟨q - 1, by omega⟩
    rw [burst_succ, Nat.add_sub_add_right]
    simp only [micros] at h
    cases hm : micro a f s with
    | cont f1 s1 => simp only [hm] at h ⊢; exact ih h (by omega)
    | blocked | fault | ret => simp [hm] at h

end

/-! ## Sections of WRITE (rule R170) -/

/-- The latches of a WRITE at `W.8`, its packet pushed in this state. -/
def writeFramed (s : State) (ty d0 d1 : Byte) (len : Half) (buf : Option BufHandle) : WriteFrame :=
  { WriteFrame.start ty d0 d1 len buf with
    ctl := ⟨.w8, .ok⟩
    cls := s.par.classify ty
    cmd := commandByte s ty d0 len buf
    k := if s.par.classify ty = .longWrite then wordsFor len.toNat else 0 }

/-- The state once a WRITE of agent `a` has passed the state gate (rules R171 to R174). -/
def State.writeStarted (s : State) (a : Nat) : State :=
  { s with lock := .held a, sigPh := ⟨false⟩, wd := s.armedWd, hist := s.hist ++ writeStartEvents }

section
variable (a : Nat) {s : State} (ty d0 d1 : Byte) (len : Half) (buf : Option BufHandle)

/-- `W.0` to `W.5` in ON. -/
theorem writeStep_starts (hfree : s.lock = .free) (hlink : s.link = .on) (hpd : s.pdActive = true) :
    micros a writeStep 6 (.start ty d0 d1 len buf) s =
      some ({ WriteFrame.start ty d0 d1 len buf with ctl := ⟨.w6, .ok⟩ }, s.writeStarted a) := by
  simp [micros, writeStep, WriteFrame.start, WriteFrame.goto, Ctl.goto, lockThen, reg, hfree, hlink, hpd,
    State.resetPh, State.armWd, State.writeStarted, writeStartEvents, State.armedWd, State.record,
    State.setLock, State.setSigPh, State.setWd]

/-- `W.7l`: the words of a long payload from word `k` on (rule R178). -/
theorem writeStep_pushes_words (hpd : s.pdActive = true) (g : WriteFrame) (res : Result) {k r : Nat}
    (hr : k + r = wordsFor g.len.toNat) :
    micros a writeStep r { g with ctl := ⟨.w7l, res⟩, k := k } s =
      some ({ g with ctl := ⟨.w7l, res⟩, k := k + r },
        { s with
          hist := s.hist ++ (List.range' k r).map fun k => .writePayload (payloadWord s g.payload g.len.toNat k) }) := by
  induction r generalizing k s with
  | zero => simp [micros]
  | succ r ih =>
    have hk : k < wordsFor g.len.toNat := by omega
    simp only [micros, writeStep, if_pos hk, reg_of_power hpd, WriteFrame.goto, Ctl.goto]
    rw [ih (by exact hpd) (by omega)]
    simp [List.range'_succ, State.record, Nat.add_right_comm, Nat.add_assoc, payloadWord, payloadByte, State.memRead]

/-- `W.6` to `W.7h`: the packet is pushed in the form of its class (rules R175 to R178). -/
theorem writeStep_frames (hpd : s.pdActive = true) (hcls : s.par.classify ty ≠ .unrecognized) :
    ∃ m ≤ 4 + wordsFor len.toNat,
      micros a writeStep m { WriteFrame.start ty d0 d1 len buf with ctl := ⟨.w6, .ok⟩ } s =
        some (writeFramed s ty d0 d1 len buf, { s with hist := s.hist ++ packetEvents s ty d0 d1 len buf }) := by
  cases hc : s.par.classify ty with
  | unrecognized => exact absurd hc hcls
  | shortWrite =>
    refine ⟨3, by omega, ?_⟩
    simp [micros, writeStep, WriteFrame.goto, Ctl.goto, WriteFrame.start, framerLabel, reg_of_power hpd, hc, writeFramed,
      commandByte, packetEvents, State.record]
  | readReq =>
    refine ⟨3, by omega, ?_⟩
    simp [micros, writeStep, WriteFrame.goto, Ctl.goto, WriteFrame.start, framerLabel, reg_of_power hpd, hc, writeFramed,
      commandByte, packetEvents, State.record]
  | longWrite =>
    refine ⟨2 + wordsFor len.toNat + 2, by omega, ?_⟩
    have hclass : micros a writeStep 2 { WriteFrame.start ty d0 d1 len buf with ctl := ⟨.w6, .ok⟩ } s =
        some ({ WriteFrame.start ty d0 d1 len buf with ctl := ⟨.w7l, .ok⟩, cls := .longWrite, k := 0 }, s) := by
      simp [micros, writeStep, WriteFrame.goto, Ctl.goto, WriteFrame.start, framerLabel, hc]
    have hwords := writeStep_pushes_words a hpd { WriteFrame.start ty d0 d1 len buf with cls := .longWrite } .ok
      (k := 0) (Nat.zero_add (wordsFor len.toNat))
    rw [micros_trans ((micros_trans hclass _).trans hwords)]
    simp [micros, writeStep, WriteFrame.goto, Ctl.goto, WriteFrame.start, reg, hpd, hc, writeFramed, commandByte,
      longCommand, packetEvents, payloadEvents, List.range_eq_range', State.record, State.memRead]

/-- The state of a WRITE at `W.8` (rules R171 to R178). -/
def State.writeSent (s : State) (a : Nat) (ty d0 d1 : Byte) (len : Half) (buf : Option BufHandle) : State :=
  { s with
    lock := .held a, sigPh := ⟨false⟩, wd := s.armedWd
    hist := s.hist ++ writeStartEvents ++ packetEvents s ty d0 d1 len buf }

/-- `W.0` to `W.7h` in ON. -/
theorem writeStep_sends (hfree : s.lock = .free) (hlink : s.link = .on) (hpd : s.pdActive = true)
    (hcls : s.par.classify ty ≠ .unrecognized) :
    ∃ m ≤ 10 + wordsFor len.toNat,
      micros a writeStep m (.start ty d0 d1 len buf) s =
        some (writeFramed s ty d0 d1 len buf, s.writeSent a ty d0 d1 len buf) := by
  obtain ⟨m, hm, hframes⟩ := writeStep_frames a (s := s.writeStarted a) ty d0 d1 len buf hpd hcls
  exact ⟨6 + m, by omega, (micros_trans (writeStep_starts a ty d0 d1 len buf hfree hlink hpd) m).trans hframes⟩

/-- A packet of no class is not pushed, and the lock is released again (rules R179, R185). -/
theorem writeStep_rejects (hfree : s.lock = .free) (hlink : s.link = .on) (hpd : s.pdActive = true)
    (hcls : s.par.classify ty = .unrecognized) :
    ∃ g, g.ctl = ⟨.w13, .unsupported⟩ ∧
      micros a writeStep 11 (.start ty d0 d1 len buf) s =
        some (g, { s with
          sigPh := ⟨false⟩, wd := s.armedWd, hist := s.hist ++ writeStartEvents ++ [.unblockLowPowerExit] }) := by
  refine ⟨{ WriteFrame.start ty d0 d1 len buf with ctl := ⟨.w13, .unsupported⟩ }, rfl, ?_⟩
  rw [micros_trans (writeStep_starts a ty d0 d1 len buf hfree hlink hpd) 5]
  simp [micros, writeStep, WriteFrame.goto, WriteFrame.raise, Ctl.goto, Ctl.raise, Ctl.finish, framerLabel, hcls,
    State.unlock, State.writeStarted, State.setLock, State.record, WriteFrame.start, hfree]

/-- Class and command byte of the packet decide exactly where `W.8` does not ask the FIFO (rule R180). -/
theorem waitDecided_iff :
    waitDecided s ty d0 len buf = true ↔
      (writeFramed s ty d0 d1 len buf).cls = .readReq ∨
        s.par.ackRequired (writeFramed s ty d0 d1 len buf).cls (writeFramed s ty d0 d1 len buf).cmd = true := by
  unfold waitDecided writeFramed
  cases hc : s.par.classify ty <;> simp

/-- A packet of no class decides nothing. -/
theorem waitDecided_unrecognized (hcls : s.par.classify ty = .unrecognized) : waitDecided s ty d0 len buf = false := by
  simp [waitDecided, hcls, Params.ackRequired]

/-- `W.8` where class or command byte decides. -/
theorem writeStep_decides (hdec : waitDecided s ty d0 len buf = true) :
    writeStep a (writeFramed s ty d0 d1 len buf) (s.writeSent a ty d0 d1 len buf) =
      .cont { (writeFramed s ty d0 d1 len buf).goto .w8a with mustWait := true } (s.writeSent a ty d0 d1 len buf) :=
  if_pos ((waitDecided_iff ty d0 d1 len buf).mp hdec)

/-- `W.8` where the FIFO is asked. -/
theorem writeStep_asks (hpd : s.pdActive = true) (hdec : waitDecided s ty d0 len buf = false) {b : Bool}
    (hans : asBool s.answer = b) :
    writeStep a (writeFramed s ty d0 d1 len buf) (s.writeSent a ty d0 d1 len buf) =
      .cont { (writeFramed s ty d0 d1 len buf).goto .w8a with mustWait := !b }
        ((s.writeSent a ty d0 d1 len buf).answered.record (.fifoWritable b)) := by
  have hcond := mt (waitDecided_iff (s := s) ty d0 d1 len buf).mpr (by simp [hdec])
  rw [← hans]
  exact (if_neg hcond).trans (regAsk_of_power (by exact hpd) _ _ _)

/-- `W.8` and `W.8a` where class or command byte decides: the WRITE comes to its wait (rule R180). -/
theorem writeStep_must_wait (hdec : waitDecided s ty d0 len buf = true) :
    micros a writeStep 2 (writeFramed s ty d0 d1 len buf) (s.writeSent a ty d0 d1 len buf) =
      some (writeAtWait s ty d0 d1 len buf, s.writeSent a ty d0 d1 len buf) := by
  simp only [micros, writeStep_decides a ty d0 d1 len buf hdec]
  rfl

/-- `W.8` and `W.8a` where the FIFO is asked and not writable: the WRITE comes to its wait (rule R180). -/
theorem writeStep_must_wait_asked (hpd : s.pdActive = true) (hdec : waitDecided s ty d0 len buf = false)
    (hans : asBool s.answer = false) :
    micros a writeStep 2 (writeFramed s ty d0 d1 len buf) (s.writeSent a ty d0 d1 len buf) =
      some (writeAtWait s ty d0 d1 len buf, (s.writeSent a ty d0 d1 len buf).answered.record (.fifoWritable false)) := by
  simp only [micros, writeStep_asks a ty d0 d1 len buf hpd hdec hans, State.answered_eq]
  rfl

/-- `W.8` to `W.12` where the FIFO is asked and writable: the lock is released, the result is `Ok` (rules R180, R181,
R185). -/
theorem writeStep_need_not_wait (hpd : s.pdActive = true) (hdec : waitDecided s ty d0 len buf = false)
    (hans : asBool s.answer = true) :
    ∃ g, g.ctl = ⟨.w13, .ok⟩ ∧
      micros a writeStep 4 (writeFramed s ty d0 d1 len buf) (s.writeSent a ty d0 d1 len buf) =
        some (g, { (s.writeSent a ty d0 d1 len buf).answered with
          lock := .free
          hist := (s.writeSent a ty d0 d1 len buf).hist ++ [.fifoWritable true, .unblockLowPowerExit] }) := by
  refine ⟨{ writeFramed s ty d0 d1 len buf with ctl := ⟨.w13, .ok⟩, mustWait := false }, rfl, ?_⟩
  simp only [micros, writeStep_asks a ty d0 d1 len buf hpd hdec hans, State.answered_eq]
  simp [writeStep, WriteFrame.goto, WriteFrame.finish, Ctl.goto, Ctl.finish, State.record, State.unlock, State.setLock,
    State.writeSent]

/-- `W.9` to `W.12`: a wait that is signaled in time releases the lock with `Ok` (rules R181, R185). -/
theorem writeStep_signaled {g : WriteFrame} (hl : g.ctl.label = .w9) (hph : s.sigPh.done = true)
    (hnow : s.now < g.t0 + s.par.wrTimeout.val) (hheld : s.lock = .held a) :
    ∃ g', g'.ctl = ⟨.w13, .ok⟩ ∧
      micros a writeStep 4 g s =
        some (g', { s with lock := .free, sigPh := ⟨false⟩, hist := s.hist ++ [.unblockLowPowerExit] }) := by
  refine ⟨{ g with ctl := ⟨.w13, .ok⟩, wres := .signaled }, rfl, ?_⟩
  have hwait := waitThen_of_signal hnow (F := WriteFrame)
  simp only [micros, writeStep, hl, hph, hwait]
  simp [WriteFrame.goto, WriteFrame.finish, Ctl.goto, Ctl.finish, State.resetPh, State.setSigPh, State.unlock, hheld,
    State.setLock, State.record]

/-- `W.9` in the moment it is reached, the signal not fired: the wait is not enabled (rule R236). -/
theorem writeStep_waits {g : WriteFrame} (hl : g.ctl.label = .w9) (hph : s.sigPh.done = false) (ht0 : g.t0 = s.now) :
    writeStep a g s = .blocked := by
  have hnow : s.now < g.t0 + s.par.wrTimeout.val := by rw [ht0, PosNat.val]; omega
  simp only [writeStep, hl, hph, waitThen_of_neither hnow]

end

/-! ## A WRITE nested in READ (rules R204, R205) -/

section
variable (a : Nat) (f : ReadFrame) {s s' : State}

/-- The latches of a READ with the nested WRITE `g` in flight (rule R23). -/
def ReadFrame.nest (f : ReadFrame) (g : WriteFrame) : ReadFrame := { f with sub := some g }

/-- Where the first call stands at `R.4`, or the second at `R.5` with the time read in this very tick. -/
def ReadFrame.calls (f : ReadFrame) (s : State) : Prop := f.ctl.label = .r4 ∨ (f.ctl.label = .r5 ∧ f.t0 = s.now)

theorem writeStep_now {g g' : WriteFrame} (h : writeStep a g s = .cont g' s') : s'.now = s.now := by
  have hkeeps := writeStep_keeps (sameCounts_keptByOps s a) g ⟨rfl, rfl⟩
  rw [h] at hkeeps
  exact hkeeps.1

/-- A micro-step of the nested WRITE is one of the READ. -/
theorem readStep_nested {g g' : WriteFrame} (hf : f.calls s) (h : writeStep a g s = .cont g' s') :
    readStep a (f.nest g) s = .cont (f.nest g') s' := by
  rcases hf with hl | ⟨hl, ht0⟩
  · simp only [readStep, ReadFrame.nest, hl, nestedWrite, h]
  · simp only [readStep, ReadFrame.nest, hl, nestedWrite, h, writeStep_now a h, ← ht0]

/-- A nested WRITE that waits keeps its READ waiting. -/
theorem readStep_nested_blocked {g : WriteFrame} (hf : f.calls s) (h : writeStep a g s = .blocked) :
    readStep a (f.nest g) s = .blocked := by
  rcases hf with hl | ⟨hl, -⟩ <;> simp only [readStep, ReadFrame.nest, hl, nestedWrite, h]

theorem readStep_nested_micros {m : Nat} {g g' : WriteFrame} (hf : f.calls s)
    (h : micros a writeStep m g s = some (g', s')) :
    micros a readStep m (f.nest g) s = some (f.nest g', s') := by
  induction m generalizing g s with
  | zero => cases h; rfl
  | succ m ih =>
    simp only [micros] at h
    cases hw : writeStep a g s with
    | cont g1 s1 =>
      simp only [hw] at h
      have hf' : f.calls s1 := hf.imp_right fun ⟨hl, ht0⟩ => ⟨hl, ht0.trans (writeStep_now a hw).symm⟩
      simp only [micros, readStep_nested a f hf hw]
      exact ih hf' h
    | blocked | fault | ret => simp [hw] at h

/-- A READ whose nested WRITE comes to its wait is kept there. -/
theorem readStep_nested_waits {m q : Nat} {g g' : WriteFrame} (hf : f.calls s)
    (h : micros a writeStep m g s = some (g', s')) (hl : g'.ctl.label = .w9) (hph : s'.sigPh.done = false)
    (ht0 : g'.t0 = s'.now) (hnow : s'.now = s.now) (hq : m ≤ q) :
    burst a .read readStep q (f.nest g) s = .next (s'.saveTop a (.read (f.nest g'))) := by
  have hf' : f.calls s' := hf.imp_right fun ⟨hl, ht⟩ => ⟨hl, ht.trans hnow.symm⟩
  rw [burst_of_micros (readStep_nested_micros a f hf h) hq,
    burst_of_blocked (readStep_nested_blocked a f hf' (writeStep_waits a hl hph ht0))]

/-- `R.4` calls the WRITE of the first request packet (rule R204). -/
theorem readStep_calls_first (hl : f.ctl.label = .r4) (hsub : f.sub = none) (s : State) :
    readStep a f s = .cont (f.nest (setMaxReturnWrite s.par f.len)) s := by
  simp only [readStep, ReadFrame.nest, hl, nestedWrite, hsub]

/-- `R.5` calls the WRITE of the second request packet (rule R205). -/
theorem readStep_calls_second (hl : f.ctl.label = .r5) (hsub : f.sub = none) (s : State) :
    readStep a f s = .cont (ReadFrame.nest { f with t0 := s.now } (requestWrite f.ty f.d0)) s := by
  simp only [readStep, ReadFrame.nest, hl, nestedWrite, hsub]

/-- `R.4` once the first request packet has been sent (rule R204). -/
theorem readStep_first_sent (hl : f.ctl.label = .r4) {g : WriteFrame} (hg : g.ctl = ⟨.w13, .ok⟩) (s : State) :
    readStep a (f.nest g) s = .cont { f with ctl := ⟨.r5, .ok⟩, sub := none } s := by
  simp only [readStep, ReadFrame.nest, hl, nestedWrite, writeStep, hg]
  rfl

/-- `R.5` once the second request packet has been sent (rule R205). -/
theorem readStep_second_sent (hl : f.ctl.label = .r5) {g : WriteFrame} (hg : g.ctl = ⟨.w13, .ok⟩) (s : State) :
    readStep a (f.nest g) s = .cont { f with ctl := ⟨.r6, .ok⟩, t0 := s.now, sub := none } s := by
  simp only [readStep, ReadFrame.nest, hl, nestedWrite, writeStep, hg]
  rfl

/-- `R.5` and `R.19` once the second request packet has failed (rule R205). -/
theorem readStep_second_fails (hl : f.ctl.label = .r5) {g : WriteFrame} {r : Result} (hr : r ≠ .ok)
    (hg : g.ctl = ⟨.w13, r⟩) (s : State) :
    micros a readStep 2 (f.nest g) s =
      some ({ f with ctl := ⟨.r20, r⟩, t0 := s.now, sub := none }, s.record .unblockLowPowerExit) := by
  simp only [micros, readStep, ReadFrame.nest, hl, nestedWrite, writeStep, hg, if_neg hr]
  rfl

/-- `R.6` in the moment it is reached, the signal not fired: the wait is not enabled (rule R236). -/
theorem readStep_waits (hl : f.ctl.label = .r6) (hrd : s.sigRd.done = false) (ht0 : f.t0 = s.now) :
    readStep a f s = .blocked := by
  have hnow : s.now < f.t0 + s.par.rdTimeout.val := by rw [ht0, PosNat.val]; omega
  simp only [readStep, hl, hrd, waitThen_of_neither hnow]

end

/-! ## The second request packet (rule R205) -/

/-- The latches saved for the operation in flight, by an agent that goes on with it. -/
theorem saveTop_of_runs {s u : State} {c : Caller} {fr : Frame} {rest : List Frame} (h : s.runs c fr rest)
    (hu : u.callers = s.callers) (fr' : Frame) :
    u.saveTop s.cur fr' = { u with callers := s.callers.set s.cur { c with stack := fr' :: rest } } := by
  obtain ⟨hc, hstack, -⟩ := h
  simp [State.saveTop, State.modifyCaller, State.setCallers, hu, hc, hstack]

/-- A READ at `R.5` in ON with the lock free, whatever the class of its packet. -/
theorem readStep_sends_second {s : State} {c : Caller} {fr : Frame} {rest : List Frame} {a : Nat} (ha : s.cur = a)
    (hruns : s.runs c fr rest) {f : ReadFrame} (hctl : f.ctl = ⟨.r5, .ok⟩) (hsub : f.sub = none)
    (hfree : s.lock = .free) (hlink : s.link = .on)
    (hpd : s.pdActive = true) (hrd : s.sigRd.done = false) {q : Nat} (hq : 20 ≤ q) :
    burst a .read readStep q f s = .next (afterSecondRequest s c f rest) := by
  subst ha
  obtain ⟨f1, hf1⟩ : ∃ f1 : ReadFrame, f1 = { f with t0 := s.now } := ⟨_, rfl⟩
  have hl : f1.ctl.label = .r5 := by rw [hf1, hctl]
  have hf : f1.calls s := .inr ⟨hl, by rw [hf1]⟩
  have hcall : readStep s.cur f s = .cont (f1.nest (.start f.ty f.d0 0 0 none)) s :=
    hf1 ▸ readStep_calls_second s.cur f (by rw [hctl]) hsub s
  rw [burst_of_micros (micros_one hcall) (by omega)]
  by_cases hcls : s.par.classify f.ty = .unrecognized
  · obtain ⟨g, hg, hrej⟩ := writeStep_rejects s.cur f.ty f.d0 0 0 none hfree hlink hpd hcls
    obtain ⟨p, hp⟩ : ∃ p, q - 1 - 11 - 2 = p + 1 := ⟨q - 1 - 11 - 3, by omega⟩
    rw [burst_of_micros (readStep_nested_micros s.cur f1 hf hrej) (by omega),
      burst_of_micros (readStep_second_fails s.cur f1 hl (by decide) hg _) (by omega), hp, burst_succ]
    simp only [readStep]
    rw [deliver_of_runs hruns (by rfl)]
    simp [afterSecondRequest, hcls, State.record, packetEvents]
  · obtain ⟨m, hm, hsend⟩ := writeStep_sends s.cur f.ty f.d0 0 0 none hfree hlink hpd hcls
    have hm : m ≤ 10 := hm
    cases hdec : waitDecided s f.ty f.d0 0 none with
    | true =>
      have hwait := (micros_trans hsend 2).trans (writeStep_must_wait s.cur f.ty f.d0 0 0 none hdec)
      rw [readStep_nested_waits s.cur f1 hf hwait rfl rfl rfl rfl (by omega), saveTop_of_runs hruns (by rfl)]
      simp only [afterSecondRequest, if_neg hcls, hdec, if_true]
      simp [State.writeSent, ReadFrame.nest, hf1, hctl]
    | false =>
      cases hans : asBool s.answer with
      | false =>
        have hwait := (micros_trans hsend 2).trans (writeStep_must_wait_asked s.cur f.ty f.d0 0 0 none hpd hdec hans)
        rw [State.answered_eq] at hwait
        rw [readStep_nested_waits s.cur f1 hf hwait rfl rfl rfl rfl (by omega), saveTop_of_runs hruns (by rfl)]
        simp only [afterSecondRequest, if_neg hcls, hdec, hans, Bool.false_eq_true, if_false]
        simp [State.writeSent, State.answered_eq, State.record, ReadFrame.nest, hf1, hctl]
      | true =>
        obtain ⟨g, hg, hends⟩ := writeStep_need_not_wait s.cur f.ty f.d0 0 0 none hpd hdec hans
        have hdone := (micros_trans hsend 4).trans hends
        rw [State.answered_eq] at hdone
        have hsent := (micros_trans (readStep_nested_micros s.cur f1 hf hdone) 1).trans
          (micros_one (readStep_second_sent s.cur f1 hl hg _))
        rw [burst_of_micros hsent (by omega), burst_of_blocked (readStep_waits s.cur _ rfl (by exact hrd) rfl),
          saveTop_of_runs hruns (by rfl)]
        simp only [afterSecondRequest, if_neg hcls, hdec, hans, Bool.false_eq_true, if_false, if_true]
        simp [State.writeSent, State.answered_eq, hf1, hfree]

/-- It overwrites the latches that the first call has written. -/
theorem afterSecondRequest_congr (s : State) (c : Caller) (f : ReadFrame) (rest : List Frame) (ctl : Ctl RLabel) :
    afterSecondRequest s c { f with ctl := ctl, sub := none } rest = afterSecondRequest s c f rest := rfl

/-! ## The first request packet (rule R204) -/

/-- The type of the first request packet is that of a short write (rule R7). -/
theorem classify_setMaxReturn (p : Params) : p.classify p.setMaxReturn = .shortWrite := if_pos rfl

/-- So its command byte alone decides whether it must wait (rules R99, R180). -/
theorem waitDecided_setMaxReturn (s : State) (d0 : Byte) :
    waitDecided s s.par.setMaxReturn d0 0 none = s.par.ackRequired .shortWrite (some d0) := by
  simp [waitDecided, commandByte, classify_setMaxReturn]

theorem setMaxReturnWrite_sends (a : Nat) {s : State} (hfree : s.lock = .free) (hlink : s.link = .on)
    (hpd : s.pdActive = true) (len : Half) :
    ∃ m ≤ 10,
      micros a writeStep m (setMaxReturnWrite s.par len) s =
        some (writeFramed s s.par.setMaxReturn (lowByte len) (highByte len) 0 none,
          s.writeSent a s.par.setMaxReturn (lowByte len) (highByte len) 0 none) :=
  writeStep_sends a _ _ _ 0 none hfree hlink hpd (by rw [classify_setMaxReturn]; decide)

section
variable {s : State} {c : Caller} {fr : Frame} {rest : List Frame} (hruns : s.runs c fr rest) {f : ReadFrame}
  (hl : f.ctl.label = .r4) (hsub : f.sub = none) (hfree : s.lock = .free) (hlink : s.link = .on)
  (hpd : s.pdActive = true) {q : Nat} (hq : 40 ≤ q)
include hruns hl hsub hfree hlink hpd hq

/-- A READ at `R.4` in ON whose first packet must wait by its command byte. -/
theorem readStep_first_must_wait (hack : s.par.ackRequired .shortWrite (some (lowByte f.len)) = true) :
    burst s.cur .read readStep q f s = .next
      { s.writeSent s.cur s.par.setMaxReturn (lowByte f.len) (highByte f.len) 0 none with
        callers := s.callers.set s.cur
          { c with
            stack := .read (f.nest (writeAtWait s s.par.setMaxReturn (lowByte f.len) (highByte f.len) 0 none)) ::
              rest } } := by
  obtain ⟨m, hm, hsend⟩ := setMaxReturnWrite_sends s.cur hfree hlink hpd f.len
  have hwait := (micros_trans hsend 2).trans
    (writeStep_must_wait _ _ _ _ _ _ ((waitDecided_setMaxReturn s _).trans hack))
  rw [burst_of_micros (micros_one (readStep_calls_first s.cur f hl hsub s)) (by omega),
    readStep_nested_waits s.cur f (.inl hl) hwait rfl rfl rfl rfl (by omega), saveTop_of_runs hruns (by rfl)]

/-- A READ at `R.4` in ON whose first packet must wait since the FIFO is not writable. -/
theorem readStep_first_must_wait_asked (hack : s.par.ackRequired .shortWrite (some (lowByte f.len)) = false)
    (hans : asBool s.answer = false) :
    burst s.cur .read readStep q f s = .next
      { (s.writeSent s.cur s.par.setMaxReturn (lowByte f.len) (highByte f.len) 0 none).answered.record
          (.fifoWritable false) with
        callers := s.callers.set s.cur
          { c with
            stack := .read (f.nest (writeAtWait s s.par.setMaxReturn (lowByte f.len) (highByte f.len) 0 none)) ::
              rest } } := by
  obtain ⟨m, hm, hsend⟩ := setMaxReturnWrite_sends s.cur hfree hlink hpd f.len
  have hwait := (micros_trans hsend 2).trans
    (writeStep_must_wait_asked _ _ _ _ _ _ hpd ((waitDecided_setMaxReturn s _).trans hack) hans)
  rw [State.answered_eq] at hwait ⊢
  rw [burst_of_micros (micros_one (readStep_calls_first s.cur f hl hsub s)) (by omega),
    readStep_nested_waits s.cur f (.inl hl) hwait rfl rfl rfl rfl (by omega), saveTop_of_runs hruns (by rfl)]

/-- A READ at `R.4` in ON whose first packet need not wait goes on with the second. -/
theorem readStep_first_need_not_wait (hack : s.par.ackRequired .shortWrite (some (lowByte f.len)) = false)
    (hans : asBool s.answer = true) (hrd : s.sigRd.done = false) :
    burst s.cur .read readStep q f s = .next
      (afterSecondRequest
        { (s.writeSent s.cur s.par.setMaxReturn (lowByte f.len) (highByte f.len) 0 none).answered with
          lock := .free
          hist := (s.writeSent s.cur s.par.setMaxReturn (lowByte f.len) (highByte f.len) 0 none).hist ++
            [.fifoWritable true, .unblockLowPowerExit] } c f rest) := by
  obtain ⟨m, hm, hsend⟩ := setMaxReturnWrite_sends s.cur hfree hlink hpd f.len
  obtain ⟨g, hg, hends⟩ :=
    writeStep_need_not_wait _ _ _ _ _ _ hpd ((waitDecided_setMaxReturn s _).trans hack) hans
  have hdone := readStep_nested_micros s.cur f (.inl hl) ((micros_trans hsend 4).trans hends)
  have hsent := (micros_trans hdone 1).trans (micros_one (readStep_first_sent s.cur f hl hg _))
  rw [State.answered_eq] at hsent ⊢
  rw [burst_of_micros (micros_one (readStep_calls_first s.cur f hl hsub s)) (by omega), burst_of_micros hsent (by omega)]
  rw [readStep_sends_second (by rfl) (by exact hruns) (by rfl) (by rfl) (by rfl) (by exact hlink) (by exact hpd)
    (by exact hrd) (by omega), afterSecondRequest_congr]

end

/-! ## What READ sends in ON -/

/-- `R.0` to `R.3` in ON (rules R201 to R203). -/
theorem readStep_begins (a : Nat) (ty addr : Byte) (maxLen cap : Half) (buf : Option BufHandle) {s : State}
    (hlink : s.link = .on) (hpd : s.pdActive = true) :
    micros a readStep 4 (.start ty addr maxLen cap buf) s =
      some ({ ReadFrame.start ty addr maxLen cap buf with ctl := ⟨.r4, .ok⟩ },
        { s with
          sigRd := ⟨false⟩, hist := s.hist ++ [.blockLowPowerExit, .clearInterrupt irqRxDataDone] }) := by
  simp [micros, readStep, ReadFrame.start, ReadFrame.goto, Ctl.goto, unlessStuck, reg, hlink, hpd, State.resetRd,
    State.setSigRd, State.record]

/-- The agent `c` that has accepted a READ. -/
def Caller.reading (c : Caller) (f : ReadFrame) : Caller := { c with port := none, stack := [.read f] }

/-- The state in which the READ of an `Idle` agent calls the WRITE of its first request packet. -/
def State.firstCall (s : State) (c : Caller) (f : ReadFrame) : State :=
  { s with
    sigRd := ⟨false⟩, hist := s.hist ++ [.blockLowPowerExit, .clearInterrupt irqRxDataDone]
    callers := s.callers.set s.cur (c.reading f) }

section
variable {s : State} {c : Caller} (hidle : s.idleAs c)
include hidle

theorem firstCall_runs (f : ReadFrame) : (s.firstCall c f).runs (c.reading f) (.read f) [] := by
  obtain ⟨hlt, -⟩ := List.getElem?_eq_some_iff.mp hidle.1
  exact ⟨List.getElem?_set_self hlt, rfl, rfl⟩

/-- A READ that an `Idle` agent accepts in ON comes to `R.4`. -/
theorem exec_read_begins {ty addr : Byte} {maxLen cap : Half} {buf : Option BufHandle}
    (hwf : (Instr.read ty addr maxLen cap buf).wellFormed s.par = true) (hlink : s.link = .on) (hpd : s.pdActive = true)
    (hq : 4 ≤ s.quantum) :
    exec (.read ty addr maxLen cap buf) s =
      burst s.cur .read readStep (s.quantum - 4) { ReadFrame.start ty addr maxLen cap buf with ctl := ⟨.r4, .ok⟩ }
        (s.firstCall c (.start ty addr maxLen cap buf)) := by
  have hfits : readRefusal cap buf = none := if_pos (by simpa [Instr.wellFormed] using hwf)
  obtain ⟨n, hn⟩ : ∃ n, s.quantum = n + 1 := ⟨s.quantum - 1, by omega⟩
  have hbegins := readStep_begins s.cur ty addr maxLen cap buf
    (s := { s with callers := s.acceptedCallers c (.read (.start ty addr maxLen cap buf)) }) hlink hpd
  show conduct (readRefusal cap buf) _ _ _ _ s = _
  rw [hfits, conduct_of_idle hidle _ _ _ _ hn, ← hn, burst_of_micros hbegins hq]
  rfl

end

/-- What the first request packet writes, its FIFO pushes spelled out (rule R204). -/
theorem firstCall_writeSent (s : State) (c : Caller) (f : ReadFrame) (d0 d1 : Byte) :
    let u := s.firstCall c f
    u.writeSent u.cur u.par.setMaxReturn d0 d1 0 none =
      { u with
        lock := .held s.cur, sigPh := ⟨false⟩, wd := s.armedWd
        hist := s.hist ++ [.blockLowPowerExit, .clearInterrupt irqRxDataDone] ++ writeStartEvents ++
          [.writeHeader s.par.setMaxReturn d0 d1 false] } := by
  intro u
  have hpacket : packetEvents u u.par.setMaxReturn d0 d1 0 none = [.writeHeader s.par.setMaxReturn d0 d1 false] := by
    simp only [packetEvents, classify_setMaxReturn]
    rfl
  rw [State.writeSent, hpacket]
  rfl

/-- What a READ that has been accepted and has sent its first packet leaves does not depend on the latches that the second
call writes, nor on the stack of its agent. -/
theorem afterSecondRequest_reading (s : State) (c : Caller) (f f0 : ReadFrame) (ctl : Ctl RLabel) :
    afterSecondRequest { s with callers := s.callers.set s.cur (c.reading f0) } (c.reading f0) { f with ctl := ctl } [] =
      afterSecondRequest s { c with port := none } f [] := by
  simp only [afterSecondRequest, State.returnedCallers, List.set_set, State.answered_eq, Caller.reading]
  rfl

/-- Settles O48: the three ends of the first WRITE, and the second WRITE after each end that goes on. -/
theorem readSendsItsRequests : Obligations.ReadSendsItsRequests := by
  refine ⟨?_, ?_⟩
  · intro ty addr maxLen cap buf s c hidle hwf hlink hpd hfree hq
    have hruns := firstCall_runs hidle (.start ty addr maxLen cap buf)
    rw [exec_read_begins hidle hwf hlink hpd (by omega)]
    refine ⟨fun hack => ?_, fun hack hans => ?_, fun hack hans => ?_⟩
    · refine (readStep_first_must_wait hruns rfl rfl hfree hlink hpd (by omega) (by exact hack)).trans ?_
      rw [firstCall_writeSent]
      simp only [whileFirstRequestWaits, State.firstCall, Caller.reading, List.set_set, Bool.false_eq_true, if_false,
        List.append_nil]
      rfl
    · refine (readStep_first_must_wait_asked hruns rfl rfl hfree hlink hpd (by omega) (by exact hack)
        (by exact hans)).trans ?_
      rw [firstCall_writeSent]
      simp only [whileFirstRequestWaits, State.firstCall, Caller.reading, List.set_set, if_true, State.answered_eq]
      rfl
    · refine (readStep_first_need_not_wait hruns rfl rfl hfree hlink hpd (by omega) (by exact hack) (by exact hans)
        rfl).trans ?_
      rw [firstCall_writeSent, ← afterSecondRequest_reading _ _ _ (.start ty addr maxLen cap buf) ⟨.r4, .ok⟩]
      refine congrArg (fun u => Host.Outcome.next (afterSecondRequest u _ _ _)) ?_
      simp [firstRequestSent, State.firstCall, State.answered_eq, ReadFrame.start, hfree]
  · intro s c f g rest hruns hl hsub hg hheld hph hnow hrd hlink hpd hq
    have hnest : f.nest g = f := by rw [ReadFrame.nest, ← hsub]
    obtain ⟨g', hg', hsig⟩ := writeStep_signaled s.cur hg hph hnow hheld
    have hsent := (micros_trans (readStep_nested_micros s.cur f (.inl hl) hsig) 1).trans
      (micros_one (readStep_first_sent s.cur f hl hg' _))
    rw [hnest] at hsent
    rw [exec_read_of_runs hruns, burst_of_micros hsent (by omega)]
    rw [readStep_sends_second (by rfl) (by exact hruns) (by rfl) (by rfl) (by rfl) (by exact hlink) (by exact hpd)
      (by exact hrd) (by omega), afterSecondRequest_congr]

end Sys2Proof.Machine
end

section
/-! PROOFS. Transitions: what they leave unchanged (O25), the no-op (O29) and the low-power operations (O32, O33). -/

namespace Sys2Proof.Machine

/-! ## What the six transitions leave alone (rules R133, R144, R149, R153, R308) -/

/-- `t` is `s` as far as no transition may write: the signals, the deadline, the memory, and a disarmed watchdog. -/
def State.SameOutsideTransition (s t : State) : Prop :=
  t.sigPh = s.sigPh ∧ t.sigRd = s.sigRd ∧ t.wd.deadline = s.wd.deadline ∧ (t.wd.armed = true → s.wd.armed = true) ∧
    t.mem = s.mem

section
variable {s u : State} (h : s.SameOutsideTransition u)
include h

theorem bringUp_keeps_sameOutsideTransition (goal : LinkState) (a : Nat) (f : BuFrame) :
    (bringUp goal a f u).Leaves s.SameOutsideTransition := by
  cases hl : f.ctl.label <;> simp_all [bringUp, State.SameOutsideTransition, State.actAsk, apply_ite]

theorem tearDown_keeps_sameOutsideTransition (goal : LinkState) (a : Nat) (f : TdFrame) :
    (tearDown goal a f u).Leaves s.SameOutsideTransition := by
  cases hl : f.ctl.label <;> simp_all [tearDown, powerOffIfOff, State.SameOutsideTransition, apply_ite]

theorem enterLpStep_keeps_sameOutsideTransition (a : Nat) (f : ElFrame) :
    (enterLpStep a f u).Leaves s.SameOutsideTransition := by
  cases hl : f.ctl.label <;> simp_all [enterLpStep, State.SameOutsideTransition, State.actAsk]

theorem exitLpStep_keeps_sameOutsideTransition (a : Nat) (f : XlFrame) :
    (exitLpStep a f u).Leaves s.SameOutsideTransition := by
  cases hl : f.ctl.label <;> simp_all [exitLpStep, State.SameOutsideTransition, State.actAsk]

end

/-- The turn of an operation none of whose micro-steps writes what a transition leaves alone. -/
theorem conduct_keeps_sameOutsideTransition {F : Type} {refusal : Option Refusal} {start : Option F}
    {view : Frame → Option F} {wrap : F → Frame} {micro : Nat → F → State → Micro F} {s t : State}
    (hmicro : ∀ f u, s.SameOutsideTransition u → (micro s.cur f u).Leaves s.SameOutsideTransition)
    (ht : conduct refusal start view wrap micro s = .next t) : s.SameOutsideTransition t :=
  conduct_keeps_while (fun _ => True) (fun _ _ => trivial) (fun _ _ _ => trivial)
    (fun _ _ _ => Micro.goesOn_of_forall fun _ _ => trivial) (fun f u _ => hmicro f u)
    (fun _ _ h => by simpa [State.SameOutsideTransition] using h) ⟨rfl, rfl, rfl, id, rfl⟩ ht

/-- Settles O25: no micro-step of a transition writes what is to be left alone, and nor do acceptance and return. -/
theorem transitionFrame : Obligations.TransitionFrame := by
  intro i s t htrans ht
  cases i with
  | enable =>
    exact conduct_keeps_sameOutsideTransition (fun f _ h => bringUp_keeps_sameOutsideTransition h _ _ f)
      (show execEnable s = _ from ht)
  | disable =>
    exact conduct_keeps_sameOutsideTransition (fun f _ h => tearDown_keeps_sameOutsideTransition h _ _ f)
      (show execDisable s = _ from ht)
  | enterLp =>
    exact conduct_keeps_sameOutsideTransition (fun f _ h => enterLpStep_keeps_sameOutsideTransition h _ f)
      (show execEnterLp s = _ from ht)
  | exitLp =>
    exact conduct_keeps_sameOutsideTransition (fun f _ h => exitLpStep_keeps_sameOutsideTransition h _ f)
      (show execExitLp s = _ from ht)
  | doze =>
    exact conduct_keeps_sameOutsideTransition (fun f _ h => bringUp_keeps_sameOutsideTransition h _ _ f)
      (show execDoze s = _ from ht)
  | dozeSuspend =>
    exact conduct_keeps_sameOutsideTransition (fun f _ h => tearDown_keeps_sameOutsideTransition h _ _ f)
      (show execDozeSuspend s = _ from ht)
  | write | read | reserved6 | reserved7 | reservedA | reservedB | reservedC | reservedD | reservedE | reservedF =>
    cases htrans

/-! ## Transitions with nothing in between (rules R134, R149 to R155) -/

/-- At its target a bring-up leaves only the answer (rule R134). -/
theorem afterBringUp_at_target {goal : LinkState} {s : State} (hat : s.link = goal) (c : Caller) :
    afterBringUp goal s c = { s with callers := s.answeredCallers c .ok } := if_pos hat

/-- Settles O29: the bring-up carried through, from its own target. -/
theorem bringUpAtTargetIsNoOp : Obligations.BringUpAtTargetIsNoOp := by
  intro s c hidle hfree hq
  refine ⟨fun hon => ?_, fun hdoze hcap => ?_⟩
  · rw [(bringUpCompletes s c hidle hfree hq).1, afterBringUp_at_target hon]
  · rw [(bringUpCompletes s c hidle hfree hq).2, if_pos hcap, afterBringUp_at_target hdoze]

/-- Settles O32: each carried through from its one legal state. -/
theorem lowPowerCompletes : Obligations.LowPowerCompletes := by
  intro s c hidle hfree hq
  exact ⟨fun _ hpd hbusy => enterLp_completes hidle hfree (fun _ => hpd) hbusy hq,
    fun _ => exitLp_completes hidle hfree hq⟩

/-- An ENTER_LP outside ON, whether or not a handler run is in progress (rule R152). -/
theorem enterLp_invalid {s : State} {c : Caller} (hidle : s.idleAs c) (hfree : s.lock = .free) (hq : 30 ≤ s.quantum)
    (hlink : s.link ≠ .on) : execEnterLp s = .next { s with callers := s.answeredCallers c .invalidState } := by
  obtain ⟨n, hn⟩ : ∃ n, s.quantum = n + 3 + 1 := ⟨s.quantum - 4, by omega⟩
  rw [execEnterLp, conduct_of_idle hidle _ _ _ _ hn, enterLp_rejects _ _ (by exact hfree) (by exact hlink),
    enterLp_leaves _ _ rfl, deliver_of_accepted hidle rfl]
  simp [hfree]

/-- Settles O33: the rejection is raised under the lock and nothing else is done. -/
theorem lowPowerFromWrongState : Obligations.LowPowerFromWrongState := by
  intro s c hidle hfree hq
  refine ⟨enterLp_invalid hidle hfree hq, fun hlink => (exitLp_completes hidle hfree hq).trans ?_⟩
  rw [afterExitLp, if_neg hlink]

end Sys2Proof.Machine
end

section
/-! PROOFS. What holds of the shared state inside each locked section, and what a micro-step does to it and to the lock (for O13). -/

namespace Sys2Proof.Machine

/-! ## The shared state that the lock protects (rules R163, R246) -/

/-- `t` has the link state and the flags of `s`, and its watchdog is armed only if that of `s` is. -/
def State.Calmer (s t : State) : Prop := s.SameLinkAndFlags t ∧ (t.wd.armed = true → s.wd.armed = true)

/-- An armed watchdog and an enabled interrupt line imply power (rules R246, R262). -/
def State.powered (s : State) : Prop :=
  (s.wd.armed = true → s.pdActive = true) ∧ (s.irqEnabled = true → s.pdActive = true)

section
variable (s : State)

@[simp] theorem State.settled_record (e : Event) : (s.record e).settled ↔ s.settled := Iff.rfl
@[simp] theorem State.settled_setLock (v : Lock) : (s.setLock v).settled ↔ s.settled := Iff.rfl
@[simp] theorem State.settled_setSigPh (v : Signal) : (s.setSigPh v).settled ↔ s.settled := Iff.rfl
@[simp] theorem State.settled_setMem (v : List Host.Cell) : (s.setMem v).settled ↔ s.settled := Iff.rfl
@[simp] theorem State.settled_answered : s.answered.settled ↔ s.settled := by simp [State.settled]
@[simp] theorem State.settled_unlock (a : Nat) : (s.unlock a).settled ↔ s.settled := by simp [State.settled]

end

theorem LinkState.onClass_of_offClass {v : LinkState} (h : v.offClass = true) : v.onClass = false := by
  cases v <;> simp_all [LinkState.offClass, LinkState.onClass]

section
variable {s : State}

/-- Outside ON the watchdog of a settled state is disarmed (rule R246). -/
theorem State.settled.disarmed (h : s.settled) (hlink : s.link ≠ .on) : s.wd.armed = false := by
  obtain ⟨-, -, -, hwd⟩ := h
  simpa [hlink] using hwd

/-- With the watchdog disarmed, the flags of a settled state say whether the link is up. -/
theorem State.settled.flagsAre (h : s.settled) (hwd : s.wd.armed = false) :
    s.flagsAre s.link.onClass s.link.onClass s.link.onClass := by
  obtain ⟨hpd, hphy, hirq, -⟩ := h
  exact ⟨hpd, hphy, hirq, hwd⟩

/-- Outside the ON class a settled state has everything off. -/
theorem State.settled.flagsAre_false (h : s.settled) (hdown : s.link.onClass = false) : s.flagsAre false false false :=
  hdown ▸ h.flagsAre (h.disarmed fun hon => by simp [hon, LinkState.onClass] at hdown)

/-- A disarm leaves a settled state with its flags (rule R242). -/
theorem State.settled.flagsAre_disarmWd (h : s.settled) :
    s.disarmWd.flagsAre s.link.onClass s.link.onClass s.link.onClass := by
  obtain ⟨hpd, hphy, hirq, -⟩ := h
  exact ⟨hpd, hphy, hirq, rfl⟩

/-- With the watchdog disarmed, a state whose flags say whether the link is up is settled. -/
theorem State.flagsAre.settled {up : Bool} (h : s.flagsAre up up up) (hlink : s.link.onClass = up) : s.settled := by
  obtain ⟨hpd, hphy, hirq, hwd⟩ := h
  exact ⟨by rw [hpd, hlink], by rw [hphy, hlink], by rw [hirq, hlink], by simp [hwd]⟩

theorem State.settled.powered (h : s.settled) : s.powered := by
  obtain ⟨hpd, -, hirq, hwd⟩ := h
  exact ⟨fun ha => by rw [hpd, hwd ha]; rfl, fun hi => by rw [hpd, ← hirq, hi]⟩

theorem State.flagsAre.powered {pd phy irq : Bool} (h : s.flagsAre pd phy irq) (hle : irq = true → pd = true) :
    s.powered := by
  obtain ⟨hpd, -, hirq, hwd⟩ := h
  exact ⟨fun ha => by simp [ha] at hwd, fun hi => hpd.trans (hle (hirq.symm.trans hi))⟩

theorem State.settled.calmer {t : State} (h : s.settled) (hst : s.Calmer t) : t.settled := by
  simp_all [State.settled, State.Calmer, State.SameLinkAndFlags]

end

/-- A disarm is calmer (rule R242). -/
theorem State.calmer_disarmWd (s : State) : s.Calmer s.disarmWd := ⟨⟨rfl, rfl, rfl, rfl⟩, fun h => by cases h⟩

/-! ## What holds while an operation holds the lock -/

section
variable {s t : State}

theorem WriteFrame.locked_of_duringLock {f : WriteFrame} (h : f.duringLock s) : f.ctl.label.locked = true := by
  cases hl : f.ctl.label <;> simp_all [WriteFrame.duringLock, WLabel.locked]

/-- In its two calls a READ is under the lock as the nested WRITE is (rule R23). -/
theorem ReadFrame.duringLock_of_call {f : ReadFrame} (hl : f.ctl.label = .r4 ∨ f.ctl.label = .r5) :
    f.duringLock s ↔ ∃ g, f.sub = some g ∧ g.duringLock s := by
  rcases hl with hl | hl <;> cases hsub : f.sub <;> simp [ReadFrame.duringLock, hl, hsub]

/-- Something holds under the lock only inside a locked section. -/
theorem Frame.locked_of_duringLock {fr : Frame} (h : fr.duringLock s) : fr.locked = true := by
  cases fr with
  | enable f | doze f => cases hl : f.ctl.label <;> simp_all [Frame.duringLock, BuFrame.duringLock, Frame.locked]
  | disable f | dozeSuspend f =>
    cases hl : f.ctl.label <;> simp_all [Frame.duringLock, TdFrame.duringLock, Frame.locked]
  | enterLp f => cases hl : f.ctl.label <;> simp_all [Frame.duringLock, ElFrame.duringLock, Frame.locked]
  | exitLp f => cases hl : f.ctl.label <;> simp_all [Frame.duringLock, XlFrame.duringLock, Frame.locked]
  | write f => exact WriteFrame.locked_of_duringLock h
  | read f =>
    cases hl : f.ctl.label with
    | r4 | r5 =>
      obtain ⟨g, hsub, hg⟩ := (ReadFrame.duringLock_of_call (by simp [hl])).mp h
      simpa [Frame.locked, hl, hsub] using WriteFrame.locked_of_duringLock hg
    | _ => simp_all [Frame.duringLock, ReadFrame.duringLock, Frame.locked]

theorem WriteFrame.duringLock.settled {f : WriteFrame} (h : f.duringLock s) : s.settled := by
  cases hl : f.ctl.label <;> simp_all [WriteFrame.duringLock]

theorem ReadFrame.duringLock.settled {f : ReadFrame} (h : f.duringLock s) : s.settled := by
  cases hl : f.ctl.label with
  | r4 | r5 =>
    obtain ⟨g, -, hg⟩ := (ReadFrame.duringLock_of_call (by simp [hl])).mp h
    exact hg.settled
  | _ => simp_all [ReadFrame.duringLock]

/-- Under the lock, too, an armed watchdog and an enabled line imply power (rules R246, R262). -/
theorem Frame.duringLock.powered {fr : Frame} (h : fr.duringLock s) : s.powered := by
  cases fr with
  | enable f | doze f =>
    cases hl : f.ctl.label <;> simp only [Frame.duringLock, BuFrame.duringLock, hl] at h <;>
      grind [State.settled.powered, State.flagsAre.powered]
  | disable f | dozeSuspend f =>
    cases hl : f.ctl.label <;> simp only [Frame.duringLock, TdFrame.duringLock, hl] at h <;>
      grind [State.settled.powered, State.flagsAre.powered]
  | enterLp f =>
    cases hl : f.ctl.label <;> simp only [Frame.duringLock, ElFrame.duringLock, hl] at h <;>
      grind [State.settled.powered, State.flagsAre.powered]
  | exitLp f =>
    cases hl : f.ctl.label <;> simp only [Frame.duringLock, XlFrame.duringLock, hl] at h <;>
      grind [State.settled.powered, State.flagsAre.powered]
  | write f => exact (WriteFrame.duringLock.settled h).powered
  | read f => exact (ReadFrame.duringLock.settled h).powered

theorem WriteFrame.duringLock.calmer {f : WriteFrame} (h : f.duringLock s) (hst : s.Calmer t) : f.duringLock t := by
  cases hl : f.ctl.label <;>
    simp_all [WriteFrame.duringLock, State.settled, State.Calmer, State.SameLinkAndFlags]

/-- What holds under the lock does not depend on the watchdog being armed, nor on anything but link state and flags. -/
theorem Frame.duringLock.calmer {fr : Frame} (h : fr.duringLock s) (hst : s.Calmer t) : fr.duringLock t := by
  cases fr with
  | enable f | doze f =>
    cases hl : f.ctl.label <;> simp_all [Frame.duringLock, BuFrame.duringLock, State.settled, State.flagsAre,
      State.Calmer, State.SameLinkAndFlags]
  | disable f | dozeSuspend f =>
    cases hl : f.ctl.label <;> simp_all [Frame.duringLock, TdFrame.duringLock, State.settled, State.flagsAre,
      State.Calmer, State.SameLinkAndFlags]
  | enterLp f =>
    cases hl : f.ctl.label <;> simp_all [Frame.duringLock, ElFrame.duringLock, State.settled, State.flagsAre,
      State.Calmer, State.SameLinkAndFlags]
  | exitLp f =>
    cases hl : f.ctl.label <;> simp_all [Frame.duringLock, XlFrame.duringLock, State.settled, State.flagsAre,
      State.Calmer, State.SameLinkAndFlags]
  | write f => exact WriteFrame.duringLock.calmer h hst
  | read f =>
    have hcalm (hs : s.settled) : t.settled := hs.calmer hst
    cases hl : f.ctl.label with
    | r4 | r5 =>
      obtain ⟨g, hsub, hg⟩ := (ReadFrame.duringLock_of_call (by simp [hl])).mp h
      exact (ReadFrame.duringLock_of_call (by simp [hl])).mpr ⟨g, hsub, hg.calmer hst⟩
    | _ => simp_all [Frame.duringLock, ReadFrame.duringLock]

end

/-! ## What a micro-step does to the lock and to what it protects (rules R72, R132)

An operation that goes on stays outside its locked section, enters it, stays inside it, or leaves it. -/

/-- How agent `a` may go on from the latches `fr` in `s` to the latches `fr'` in `s'`. -/
def Frame.Advances (a : Nat) (fr : Frame) (s : State) (fr' : Frame) (s' : State) : Prop :=
  match fr.locked, fr'.locked with
  | false, false => s'.lock = s.lock ∧ s.Calmer s'
  | false, true => s.lock = .free ∧ s'.lock = .held a ∧ (s.settled → fr'.duringLock s')
  | true, true => s'.lock = s.lock ∧ (fr.duringLock s → fr'.duringLock s')
  | true, false => s'.lock = (s.unlock a).lock ∧ (fr.duringLock s → s'.settled)

/-- Rules R133 to R143, label by label: the flags follow the power sequence, and the target is written where they are all on. -/
theorem bringUp_advances {goal : LinkState} {f : BuFrame} (hgoal : goal.onClass = true)
    (htarget : f.ctl.label ≠ .bu0 → f.target = goal) (a : Nat) (s : State) :
    (bringUp goal a f s).GoesOn fun f' s' => (Frame.enable f).Advances a s (.enable f') s' := by
  cases hl : f.ctl.label <;>
    simp only [bringUp, hl, Micro.goesOn_cont, Micro.goesOn_ret, Micro.goesOn_ite, goesOn_lockThen, goesOn_regAsk,
      BuFrame.goto, BuFrame.gotoInCallback, BuFrame.finish, Ctl.goto, Ctl.finish, Frame.Advances, Frame.locked,
      Frame.duringLock, BuFrame.duringLock, State.act, Action.effect, State.actAsk]
  case bu4 =>
    cases hon : f.prev.onClass with
    | true => exact ⟨trivial, fun ⟨hset, hprev⟩ => ⟨hset, hprev, hprev ▸ hon⟩⟩
    | false => exact ⟨trivial, fun ⟨hset, hprev⟩ => hset.flagsAre_false (hprev ▸ hon)⟩
  case bu4a =>
    split
    case isTrue => exact ⟨rfl, fun ⟨hset, _, hon⟩ => hon ▸ hset.flagsAre_disarmWd⟩
    case isFalse hne => exact ⟨rfl, fun ⟨hset, hprev, hon⟩ => hon ▸ hset.flagsAre (hset.disarmed (hprev ▸ hne))⟩
  case bu4b | bu26 =>
    have hup : (s.setLink f.target).link.onClass = true := by simpa [htarget (by simp [hl])] using hgoal
    exact ⟨rfl, fun h => State.flagsAre.settled h hup⟩
  case bu9 => cases f.handoff <;> exact ⟨trivial, id⟩
  all_goals simp +contextual [State.flagsAre, State.Calmer, State.SameLinkAndFlags]

/-- Rules R144 to R146, label by label: from outside the OFF class the flags go off one by one before the lock is released. -/
theorem tearDown_advances {goal : LinkState} {f : TdFrame} (hgoal : goal.onClass = false)
    (htarget : f.ctl.label ≠ .td0 → f.target = goal) (a : Nat) (s : State) :
    (tearDown goal a f s).GoesOn fun f' s' => (Frame.disable f).Advances a s (.disable f') s' := by
  cases hl : f.ctl.label <;>
    simp only [tearDown, hl, Micro.goesOn_cont, Micro.goesOn_ret, Micro.goesOn_ite, goesOn_lockThen,
      goesOn_irqLineDisableThen, powerOffIfOff, TdFrame.goto, TdFrame.gotoInCallback, TdFrame.finish, Ctl.goto,
      Ctl.finish, Frame.Advances, Frame.locked, Frame.duringLock, TdFrame.duringLock, State.act, Action.effect]
  case td3 =>
    cases hoff : f.prev.offClass with
    | true => exact ⟨trivial, fun ⟨hset, hprev⟩ => ⟨hset, hprev ▸ hoff⟩⟩
    | false => exact ⟨trivial, id⟩
  case td3b =>
    have hdown : (s.setLink f.target).link.onClass = false := by simpa [htarget (by simp [hl])] using hgoal
    split
    case isTrue =>
      refine ⟨rfl, fun ⟨hset, hoff⟩ => ?_⟩
      have hflags := hset.flagsAre_false (LinkState.onClass_of_offClass hoff)
      exact State.flagsAre.settled hflags hdown
    case isFalse => exact ⟨rfl, fun ⟨hset, _⟩ => hset⟩
  case td4 => exact ⟨rfl, fun ⟨hset, hprev⟩ => hprev ▸ hset.flagsAre_disarmWd⟩
  case td10 =>
    refine ⟨by simp, fun ⟨⟨_, hphy, hirq, hwd⟩, hlink⟩ => ?_⟩
    have hdown : s.link.onClass = false := by rw [hlink, htarget (by simp [hl]), hgoal]
    exact State.flagsAre.settled (up := false) ⟨rfl, hphy, hirq, hwd⟩ hdown
  all_goals simp +contextual [State.flagsAre, State.Calmer, State.SameLinkAndFlags]

/-- Rules R149 to R152, label by label. -/
theorem enterLpStep_advances (f : ElFrame) (a : Nat) (s : State) :
    (enterLpStep a f s).GoesOn fun f' s' => (Frame.enterLp f).Advances a s (.enterLp f') s' := by
  cases hl : f.ctl.label <;>
    simp only [enterLpStep, hl, Micro.goesOn_cont, Micro.goesOn_ret, Micro.goesOn_ite, goesOn_lockThen,
      goesOn_irqLineDisableThen, goesOn_dump, ElFrame.goto, Ctl.goto, Ctl.finish, Ctl.raise, Frame.Advances,
      Frame.locked, Frame.duringLock, ElFrame.duringLock, State.act, Action.effect, State.actAsk]
  case el3 => exact ⟨rfl, fun ⟨hset, hlink⟩ => by simpa [hlink, LinkState.onClass] using hset.flagsAre_disarmWd⟩
  case el9 =>
    refine ⟨by simp, fun ⟨⟨_, hphy, hirq, hwd⟩, hlink⟩ => ?_⟩
    exact State.flagsAre.settled (up := false) ⟨rfl, hphy, hirq, hwd⟩ (congrArg LinkState.onClass hlink)
  all_goals simp +contextual [State.flagsAre]

/-- Rules R152 to R155, label by label. -/
theorem exitLpStep_advances (f : XlFrame) (a : Nat) (s : State) :
    (exitLpStep a f s).GoesOn fun f' s' => (Frame.exitLp f).Advances a s (.exitLp f') s' := by
  cases hl : f.ctl.label <;>
    simp only [exitLpStep, hl, Micro.goesOn_cont, Micro.goesOn_ret, Micro.goesOn_ite, goesOn_lockThen, XlFrame.goto,
      Ctl.goto, Ctl.finish, Ctl.raise, Frame.Advances, Frame.locked, Frame.duringLock, XlFrame.duringLock, State.act,
      Action.effect, State.actAsk]
  case xl3 =>
    refine ⟨by simp, fun ⟨hset, hlink⟩ => ?_⟩
    obtain ⟨-, hphy, hirq, hwd⟩ := hset.flagsAre_false (by rw [hlink]; rfl)
    exact ⟨rfl, hphy, hirq, hwd⟩
  case xl18 => exact ⟨rfl, fun h => State.flagsAre.settled h rfl⟩
  all_goals simp +contextual [State.flagsAre]

/-- A wait goes on from its own state, or at a tie from the one in which the environment has answered (rule R237). -/
theorem goesOn_waitThen_or_answered {F : Type} {R : F → State → Prop} {s : State} {onSignal onTimeout : State → Micro F}
    (done : Bool) (t0 limit : Nat) (hsig : ∀ t, t = s ∨ t = s.answered → (onSignal t).GoesOn R)
    (htime : ∀ t, t = s ∨ t = s.answered → (onTimeout t).GoesOn R) :
    (waitThen s done t0 limit onSignal onTimeout).GoesOn R := by
  unfold waitThen
  split
  · trivial
  · exact hsig s (.inl rfl)
  · exact htime s (.inl rfl)
  · exact (Micro.goesOn_ite R _ _ _).mpr ⟨fun _ => htime _ (.inr rfl), fun _ => hsig _ (.inr rfl)⟩

/-- Rule R170, label by label: the watchdog is armed in ON alone. -/
theorem writeStep_advances (f : WriteFrame) (a : Nat) (s : State) :
    (writeStep a f s).GoesOn fun f' s' => (Frame.write f).Advances a s (.write f') s' := by
  cases hl : f.ctl.label <;>
    simp only [writeStep, hl, Micro.goesOn_cont, Micro.goesOn_ret, Micro.goesOn_ite, goesOn_lockThen, goesOn_reg,
      goesOn_regAsk, goesOn_dump, decideWait, WriteFrame.goto, WriteFrame.finish, WriteFrame.raise, Ctl.goto,
      Ctl.finish, Ctl.raise, Frame.Advances, Frame.locked, WLabel.locked, Frame.duringLock, WriteFrame.duringLock]
  case w5 =>
    exact ⟨rfl, fun ⟨⟨hpd, hphy, hirq, _⟩, hlink⟩ => ⟨⟨hpd, hphy, hirq, fun _ => hlink⟩, hlink⟩⟩
  case w7 => cases f.cls <;> exact ⟨trivial, id⟩
  case w9 =>
    refine goesOn_waitThen_or_answered _ _ _ ?_ ?_ <;> rintro t (rfl | rfl) <;> simp +contextual
  case w10a =>
    split
    case isTrue => exact ⟨rfl, fun ⟨hset, hlink⟩ => ⟨hset.calmer s.calmer_disarmWd, hlink⟩⟩
    case isFalse => exact ⟨rfl, id⟩
  all_goals simp +contextual [State.Calmer, State.SameLinkAndFlags]

/-! ### Returning -/

section
variable {F : Type}

@[simp] theorem reg_eq_ret (s : State) (e : Event) (k : State → Micro F) (r : Result) (t : State) :
    reg s e k = .ret r t ↔ s.pdActive = true ∧ k (s.record e) = .ret r t := by
  cases h : s.pdActive <;> simp [reg, h]

@[simp] theorem regAsk_eq_ret {α : Type} (s : State) (read : Nat → α) (e : α → Event) (k : α → State → Micro F)
    (r : Result) (t : State) :
    regAsk s read e k = .ret r t ↔
      s.pdActive = true ∧ k (read s.answer) (s.answered.record (e (read s.answer))) = .ret r t := by
  cases h : s.pdActive <;> simp [regAsk, h]

@[simp] theorem dump_eq_ret (s : State) (c : DumpCause) (k : State → Micro F) (r : Result) (t : State) :
    dump s c k = .ret r t ↔ s.pdActive = true ∧ k (s.record (.dump c)) = .ret r t := reg_eq_ret s _ k r t

@[simp] theorem lockThen_eq_ret (a : Nat) (s : State) (k : State → Micro F) (r : Result) (t : State) :
    lockThen a s k = .ret r t ↔ s.lock = .free ∧ k (s.setLock (.held a)) = .ret r t := by
  by_cases h : s.lock = .free <;> simp [lockThen, h]

@[simp] theorem unlessStuck_eq_ret (a : Nat) (s : State) (ends : Bool) (m : Micro F) (r : Result) (t : State) :
    unlessStuck a s ends m = .ret r t ↔ ¬(ends = true ∧ s.lock = .held a) ∧ m = .ret r t := by
  by_cases h : ends = true ∧ s.lock = .held a <;> simp [unlessStuck, h]

@[simp] theorem irqLineDisableThen_eq_ret (s : State) (k : State → Micro F) (r : Result) (t : State) :
    irqLineDisableThen s k = .ret r t ↔ s.irqBusy = false ∧ k (s.act .irqLineDisable) = .ret r t := by
  cases h : s.irqBusy <;> simp [irqLineDisableThen, h]

theorem waitThen_ne_ret {s : State} {done : Bool} {t0 limit : Nat} {onSignal onTimeout : State → Micro F} {r : Result}
    {t : State} (hsig : ∀ u, onSignal u ≠ .ret r t) (htime : ∀ u, onTimeout u ≠ .ret r t) :
    waitThen s done t0 limit onSignal onTimeout ≠ .ret r t := by
  unfold waitThen
  split <;> simp [hsig, htime, ite_eq_iff]

@[simp] theorem Micro.map_eq_ret {G : Type} (wrap : F → G) (m : Micro F) (r : Result) (t : State) :
    m.map wrap = .ret r t ↔ m = .ret r t := by cases m <;> simp [Micro.map]

end

section
variable {a : Nat} {s t : State} {r : Result}

theorem bringUp_ret {goal : LinkState} {f : BuFrame} (h : bringUp goal a f s = .ret r t) :
    f.ctl.label = .bu29 ∧ t = s := by
  cases hl : f.ctl.label <;> simp_all [bringUp, ite_eq_iff]

theorem tearDown_ret {goal : LinkState} {f : TdFrame} (h : tearDown goal a f s = .ret r t) :
    f.ctl.label = .td12 ∧ t = s := by
  cases hl : f.ctl.label <;> simp_all [tearDown, powerOffIfOff, ite_eq_iff]

theorem enterLpStep_ret {f : ElFrame} (h : enterLpStep a f s = .ret r t) : f.ctl.label = .el11 ∧ t = s := by
  cases hl : f.ctl.label <;> simp_all [enterLpStep, ite_eq_iff]

theorem exitLpStep_ret {f : XlFrame} (h : exitLpStep a f s = .ret r t) : f.ctl.label = .xl20 ∧ t = s := by
  cases hl : f.ctl.label <;> simp_all [exitLpStep, ite_eq_iff]

theorem writeStep_ret {f : WriteFrame} (h : writeStep a f s = .ret r t) : f.ctl.label = .w13 ∧ t = s := by
  cases hl : f.ctl.label with
  | w9 =>
    simp only [writeStep, hl] at h
    exact absurd h (waitThen_ne_ret (by simp) (by simp))
  | _ => simp_all [writeStep, decideWait, ite_eq_iff]

/-- A nested WRITE's return is not the READ's. -/
theorem nestedWrite_ne_ret (f : ReadFrame) (g : WriteFrame) (l : RLabel) : nestedWrite a f g l s ≠ .ret r t := by
  unfold nestedWrite
  split
  · simp
  · split <;> simp

theorem readStep_ret {f : ReadFrame} (h : readStep a f s = .ret r t) : f.ctl.label = .r20 ∧ t = s := by
  cases hl : f.ctl.label with
  | r4 =>
    simp only [readStep, hl] at h
    exact absurd h (nestedWrite_ne_ret f _ _)
  | r5 =>
    simp only [readStep, hl] at h
    split at h <;> cases h
    exact absurd ‹_› (nestedWrite_ne_ret f _ _)
  | r6 =>
    simp only [readStep, hl] at h
    exact absurd h (waitThen_ne_ret (by simp) (by simp))
  | _ => simp_all [readStep, appendByte, ite_eq_iff]

/-- An operation returns from outside its locked section, and in that micro-step does nothing else. -/
theorem frameStep_ret {fr : Frame} (h : frameStep a fr s = .ret r t) : fr.locked = false ∧ t = s := by
  cases fr <;> simp only [frameStep, Micro.map_eq_ret] at h
  case enable f | doze f =>
    obtain ⟨hl, ht⟩ := bringUp_ret h
    exact ⟨by simp [Frame.locked, hl], ht⟩
  case disable f | dozeSuspend f =>
    obtain ⟨hl, ht⟩ := tearDown_ret h
    exact ⟨by simp [Frame.locked, hl], ht⟩
  case enterLp f =>
    obtain ⟨hl, ht⟩ := enterLpStep_ret h
    exact ⟨by simp [Frame.locked, hl], ht⟩
  case exitLp f =>
    obtain ⟨hl, ht⟩ := exitLpStep_ret h
    exact ⟨by simp [Frame.locked, hl], ht⟩
  case write f =>
    obtain ⟨hl, ht⟩ := writeStep_ret h
    exact ⟨by simp [Frame.locked, WLabel.locked, hl], ht⟩
  case read f =>
    obtain ⟨hl, ht⟩ := readStep_ret h
    exact ⟨by simp [Frame.locked, hl], ht⟩

end

/-! ### READ, and every operation -/

/-- A READ outside its two calls has no nested WRITE (rule R23): what the invariant leaves open. -/
def Frame.nestedOnlyInCalls : Frame → Prop
  | .read f => f.ctl.label ≠ .r4 → f.ctl.label ≠ .r5 → f.sub = none
  | _ => True

/-- From outside its locked section to outside, with nothing done. -/
theorem Frame.advances_outside {a : Nat} {fr fr' : Frame} (hfr : fr.locked = false) (hfr' : fr'.locked = false)
    (s : State) : fr.Advances a s fr' s := by
  simp [Frame.Advances, hfr, hfr', State.Calmer, State.SameLinkAndFlags]

/-- In a call a READ goes on as its nested WRITE does. -/
theorem readFrame_advances_of_nested {a : Nat} {f : ReadFrame} {w w' : WriteFrame} {s s' : State}
    (hl : f.ctl.label = .r4 ∨ f.ctl.label = .r5) (hsub : f.sub = some w)
    (h : (Frame.write w).Advances a s (.write w') s') :
    (Frame.read f).Advances a s (.read { f with sub := some w' }) s' := by
  rcases hl with hl | hl <;>
    simpa [Frame.Advances, Frame.locked, Frame.duringLock, ReadFrame.duringLock, hl, hsub] using h

/-- A call begins with a WRITE that has not asked for the lock, goes on as that WRITE does, and ends where it has released the
lock (rules R204, R205). -/
theorem nestedWrite_advances {f : ReadFrame} (hl : f.ctl.label = .r4 ∨ f.ctl.label = .r5) {g : WriteFrame}
    (hg : g.ctl.label = .w0) {l : RLabel} (hnext : l = .r5 ∨ l = .r6) (a : Nat) (s : State) :
    (nestedWrite a f g l s).GoesOn fun f' s' =>
      (Frame.read f).Advances a s (.read f') s' ∧ (Frame.read f').nestedOnlyInCalls := by
  cases hsub : f.sub with
  | none =>
    simp only [nestedWrite, hsub]
    refine ⟨Frame.advances_outside ?_ ?_ s, fun h4 h5 => absurd hl (by simp_all)⟩ <;>
      rcases hl with hl | hl <;> simp [Frame.locked, WLabel.locked, hl, hsub, hg]
  | some w =>
    have hw := writeStep_advances w a s
    cases hm : writeStep a w s <;> simp only [nestedWrite, hsub, hm, Micro.goesOn_blocked, Micro.goesOn_fault]
    case cont w' s' =>
      rw [hm] at hw
      exact ⟨readFrame_advances_of_nested hl hsub hw, fun h4 h5 => absurd hl (by simp_all)⟩
    case ret r s' =>
      obtain ⟨hlw, rfl⟩ := writeStep_ret hm
      refine ⟨Frame.advances_outside ?_ ?_ _, fun _ _ => rfl⟩
      · rcases hl with hl | hl <;> simp [Frame.locked, WLabel.locked, hl, hsub, hlw]
      · by_cases hr : r = .ok <;> rcases hnext with rfl | rfl <;>
          simp [Frame.locked, ReadFrame.finish, Ctl.finish, hr]

/-- Rule R200, label by label; the one label from which a READ comes to a call is `R.3`, and it brings no nested WRITE. -/
theorem readStep_advances {f : ReadFrame} (hnested : (Frame.read f).nestedOnlyInCalls) (a : Nat) (s : State) :
    (readStep a f s).GoesOn fun f' s' =>
      (Frame.read f).Advances a s (.read f') s' ∧ (Frame.read f').nestedOnlyInCalls := by
  cases hl : f.ctl.label
  case r4 => simpa only [readStep, hl] using nestedWrite_advances (.inl hl) rfl (.inl rfl) a s
  case r5 =>
    have hw := nestedWrite_advances (.inr hl) (g := requestWrite f.ty f.d0) rfl (.inr rfl) a s
    simp only [readStep, hl]
    cases hm : nestedWrite a f (requestWrite f.ty f.d0) .r6 s with
    | blocked | fault | ret => trivial
    | cont f' s' =>
      rw [hm] at hw
      exact hw
  all_goals
    have hsub : f.sub = none := hnested (by simp [hl]) (by simp [hl])
    simp only [readStep, hl, Micro.goesOn_cont, Micro.goesOn_ret, Micro.goesOn_ite, goesOn_lockThen, goesOn_reg,
      goesOn_regAsk, goesOn_dump, goesOn_unlessStuck, appendByte, ReadFrame.goto, ReadFrame.finish, ReadFrame.raise,
      Ctl.goto, Ctl.finish, Ctl.raise, Frame.Advances, Frame.locked, Frame.duringLock, ReadFrame.duringLock,
      Frame.nestedOnlyInCalls, hsub]
  case r6 =>
    refine goesOn_waitThen_or_answered _ _ _ ?_ ?_ <;> rintro t (rfl | rfl) <;>
      simp [State.Calmer, State.SameLinkAndFlags]
  case r10 => cases s.par.rxTagClass (rxTag f.w) <;> simp [drainLabel]
  case r10m => by_cases hj : f.j < wordsFor f.cnt.toNat <;> simp [hj]
  all_goals simp [State.Calmer, State.SameLinkAndFlags]

/-- Every operation with its own target, READ with no nested WRITE outside its calls, goes on as `Frame.Advances` says. -/
theorem frameStep_advances {fr : Frame} (htarget : fr.targetSet) (hnested : fr.nestedOnlyInCalls) (a : Nat) (s : State) :
    (frameStep a fr s).GoesOn fun fr' s' => fr.Advances a s fr' s' ∧ fr'.nestedOnlyInCalls := by
  cases fr <;> simp only [frameStep, Micro.goesOn_map]
  case enable f | doze f => exact (bringUp_advances rfl htarget a s).mono fun _ _ h => ⟨h, trivial⟩
  case disable f | dozeSuspend f => exact (tearDown_advances rfl htarget a s).mono fun _ _ h => ⟨h, trivial⟩
  case enterLp f => exact (enterLpStep_advances f a s).mono fun _ _ h => ⟨h, trivial⟩
  case exitLp f => exact (exitLpStep_advances f a s).mono fun _ _ h => ⟨h, trivial⟩
  case write f => exact (writeStep_advances f a s).mono fun _ _ h => ⟨h, trivial⟩
  case read f => exact readStep_advances hnested a s

end Sys2Proof.Machine
end

section
/-! PROOFS. What every step keeps: the invariant, with no nested WRITE of a READ outside its calls (for O13). -/

namespace Sys2Proof.Machine

/-! ## What a micro-step leaves to the agents -/

/-- `t` has the caller agents and the handler of `s`, and during a run of it the line stays enabled (rules R22, R131). -/
def State.SparesAgents (s t : State) : Prop :=
  t.callers = s.callers ∧ t.irq = s.irq ∧ t.irqBusy = s.irqBusy ∧
    (s.irqBusy = true → s.irqEnabled = true → t.irqEnabled = true)

theorem writeStep_sparesAgents (a : Nat) (f : WriteFrame) (s : State) : (writeStep a f s).Leaves s.SparesAgents := by
  cases hl : f.ctl.label with
  | w9 =>
    simp only [writeStep, hl]
    refine leaves_waitThen _ _ _ _ ?_ ?_ <;> rintro t (rfl | rfl) <;> simp [State.SparesAgents]
  | _ => simp [writeStep, hl, decideWait, State.SparesAgents, apply_ite]

theorem nestedWrite_sparesAgents (a : Nat) (f : ReadFrame) (g : WriteFrame) (l : RLabel) (s : State) :
    (nestedWrite a f g l s).Leaves s.SparesAgents := by
  unfold nestedWrite
  split
  · simp [State.SparesAgents]
  · rename_i w _
    have hw := writeStep_sparesAgents a w s
    split <;> simp_all

theorem readStep_sparesAgents (a : Nat) (f : ReadFrame) (s : State) : (readStep a f s).Leaves s.SparesAgents := by
  cases hl : f.ctl.label with
  | r4 => simpa only [readStep, hl] using nestedWrite_sparesAgents a f _ _ s
  | r5 =>
    have hw := nestedWrite_sparesAgents a f (requestWrite f.ty f.d0) .r6 s
    simp only [readStep, hl]
    split <;> simp_all
  | r6 =>
    simp only [readStep, hl]
    refine leaves_waitThen _ _ _ _ ?_ ?_ <;> rintro t (rfl | rfl) <;> simp [State.SparesAgents]
  | _ => simp [readStep, hl, appendByte, State.SparesAgents]

/-- A micro-step of an operation writes no agent's record, and disables the line only between two handler runs. -/
theorem frameStep_sparesAgents (a : Nat) (fr : Frame) (s : State) : (frameStep a fr s).Leaves s.SparesAgents := by
  cases fr <;> simp only [frameStep, Micro.leaves_map]
  case enable f | doze f =>
    cases hl : f.ctl.label <;>
      simp +contextual [bringUp, hl, State.SparesAgents, apply_ite, State.actAsk, State.act, Action.effect]
  case disable f | dozeSuspend f =>
    cases hl : f.ctl.label <;>
      simp +contextual [tearDown, hl, powerOffIfOff, State.SparesAgents, apply_ite, State.act, Action.effect]
  case enterLp f =>
    cases hl : f.ctl.label <;>
      simp +contextual [enterLpStep, hl, State.SparesAgents, State.actAsk, State.act, Action.effect]
  case exitLp f =>
    cases hl : f.ctl.label <;>
      simp +contextual [exitLpStep, hl, State.SparesAgents, State.actAsk, State.act, Action.effect]
  case write f => exact writeStep_sparesAgents a f s
  case read f => exact readStep_sparesAgents a f s

theorem State.handlerAccounted.of_sparesAgents {s t : State} (h : s.handlerAccounted) (hst : s.SparesAgents t) :
    t.handlerAccounted := by
  obtain ⟨hbusy, hen⟩ := h
  obtain ⟨-, hirq, hb, hline⟩ := hst
  exact ⟨by rw [hb, hirq]; exact hbusy, fun h => hline (hb ▸ h) (hen (hb ▸ h))⟩

/-! ## The lock's account, by the operations inside their locked sections (rules R29, R72, R132) -/

/-- The operations in flight of agent `a` that are inside their locked section. -/
def lockedFrames (callers : List Caller) (a : Nat) : List Frame :=
  (callers[a]?).elim [] fun c => c.stack.filter Frame.locked

/-- With the lock free no agent has an operation inside its locked section, and the shared state is settled; held, the holder
has one, the others have none, and the shared state is as that one is to have it. -/
def State.lockSound (L : Nat → List Frame) (s : State) : Prop :=
  match s.lock with
  | .free => (∀ a, L a = []) ∧ s.settled
  | .held b => ∃ fr, (∀ a, L a = if a = b then [fr] else []) ∧ fr.duringLock s

theorem lockedFrames_of_caller {callers : List Caller} {a : Nat} {c : Caller} (hc : callers[a]? = some c) :
    lockedFrames callers a = c.stack.filter Frame.locked := by simp [lockedFrames, hc]

theorem mem_lockedFrames {callers : List Caller} {a : Nat} {fr : Frame} :
    fr ∈ lockedFrames callers a ↔ ∃ c, callers[a]? = some c ∧ fr ∈ c.stack ∧ fr.locked = true := by
  cases hc : callers[a]? <;> simp [lockedFrames, hc]

section
variable {s t : State} {L : Nat → List Frame} {a : Nat}

theorem State.lockSound_of_free (hfree : s.lock = .free) : s.lockSound L ↔ (∀ a, L a = []) ∧ s.settled := by
  simp only [State.lockSound, hfree]

theorem State.lockSound_of_held {b : Nat} (hheld : s.lock = .held b) :
    s.lockSound L ↔ ∃ fr, (∀ a, L a = if a = b then [fr] else []) ∧ fr.duringLock s := by
  simp only [State.lockSound, hheld]

/-- An agent that does not hold the lock has no operation inside its locked section. -/
theorem State.lockAccounted.lockedFrames_eq_nil (h : s.lockAccounted) (ha : s.lock ≠ .held a) :
    lockedFrames s.callers a = [] := by
  refine List.eq_nil_iff_forall_not_mem.mpr fun fr hfr => ?_
  obtain ⟨c, hc, hmem, hlocked⟩ := mem_lockedFrames.mp hfr
  exact ha (h.held hc hmem hlocked)

/-- What the invariant says of the lock is that it is sound. -/
theorem State.lockAccounted.lockSound (h : s.lockAccounted) (hduring : s.duringLockHolds) :
    s.lockSound (lockedFrames s.callers) := by
  unfold State.duringLockHolds at hduring
  cases hl : s.lock with
  | free =>
    rw [hl] at hduring
    exact (State.lockSound_of_free hl).mpr ⟨fun a => h.lockedFrames_eq_nil (by simp [hl]), hduring⟩
  | held b =>
    rw [hl] at hduring
    obtain ⟨c, fr, hc, hfr, hfrd⟩ := hduring
    refine (State.lockSound_of_held hl).mpr ⟨fr, fun a => ?_, hfrd⟩
    by_cases hab : a = b
    · subst hab
      have hone : (lockedFrames s.callers a).length = 1 := by
        rw [lockedFrames_of_caller hc, ← List.countP_eq_length_filter, h.1 a c hc, if_pos hl]
      obtain ⟨x, hx⟩ := List.length_eq_one_iff.mp hone
      have hmem : fr ∈ lockedFrames s.callers a := mem_lockedFrames.mpr ⟨c, hc, hfr, Frame.locked_of_duringLock hfrd⟩
      rw [hx, List.mem_singleton] at hmem
      rw [hx, if_pos rfl, hmem]
    · rw [if_neg hab]
      exact h.lockedFrames_eq_nil (by simpa [hl] using Ne.symm hab)

theorem State.lockSound.lockAccounted (h : s.lockSound (lockedFrames s.callers)) : s.lockAccounted := by
  unfold State.lockAccounted
  cases hl : s.lock with
  | free =>
    obtain ⟨hnil, -⟩ := (State.lockSound_of_free hl).mp h
    refine ⟨fun a c hc => ?_, fun a ha => by cases ha⟩
    rw [List.countP_eq_length_filter, ← lockedFrames_of_caller hc, hnil]
    rfl
  | held b =>
    obtain ⟨fr, hL, -⟩ := (State.lockSound_of_held hl).mp h
    refine ⟨fun a c hc => ?_, fun a ha => ?_⟩
    · rw [List.countP_eq_length_filter, ← lockedFrames_of_caller hc, hL]
      by_cases hab : a = b
      · simp [hab]
      · simp [hab, Ne.symm hab]
    · obtain rfl := Lock.held.inj ha
      obtain ⟨c, hc, -⟩ := mem_lockedFrames.mp (show fr ∈ lockedFrames s.callers b by simp [hL])
      exact (List.getElem?_eq_some_iff.mp hc).1

theorem State.lockSound.duringLockHolds (h : s.lockSound (lockedFrames s.callers)) : s.duringLockHolds := by
  unfold State.duringLockHolds
  cases hl : s.lock with
  | free => exact ((State.lockSound_of_free hl).mp h).2
  | held b =>
    obtain ⟨fr, hL, hfr⟩ := (State.lockSound_of_held hl).mp h
    obtain ⟨c, hc, hmem, -⟩ := mem_lockedFrames.mp (show fr ∈ lockedFrames s.callers b by simp [hL])
    exact ⟨c, fr, hc, hmem, hfr⟩

theorem State.lockSound.calmer (h : s.lockSound L) (hlock : t.lock = s.lock) (hst : s.Calmer t) : t.lockSound L := by
  cases hl : s.lock with
  | free =>
    obtain ⟨hnil, hset⟩ := (State.lockSound_of_free hl).mp h
    exact (State.lockSound_of_free (hlock.trans hl)).mpr ⟨hnil, hset.calmer hst⟩
  | held b =>
    obtain ⟨fr, hL, hfr⟩ := (State.lockSound_of_held hl).mp h
    exact (State.lockSound_of_held (hlock.trans hl)).mpr ⟨fr, hL, hfr.calmer hst⟩

/-- An agent that has an operation inside its locked section holds the lock, and has no other there. -/
theorem State.lockSound.of_locked (h : s.lockSound L) {fr : Frame} {rest : List Frame} (hL : L a = fr :: rest) :
    s.lock = .held a ∧ fr.duringLock s ∧ rest = [] ∧ ∀ b, b ≠ a → L b = [] := by
  cases hl : s.lock with
  | free =>
    obtain ⟨hnil, -⟩ := (State.lockSound_of_free hl).mp h
    simp [hnil] at hL
  | held b =>
    obtain ⟨x, hx, hxd⟩ := (State.lockSound_of_held hl).mp h
    by_cases hab : a = b
    · subst hab
      obtain ⟨rfl, rfl⟩ : x = fr ∧ [] = rest := by simpa [hx] using hL
      exact ⟨rfl, hxd, rfl, fun b hb => by rw [hx, if_neg hb]⟩
    · simp [hx, hab] at hL

/-- A micro-step of an operation of agent `a` keeps the lock's account. -/
theorem State.lockSound.advances (h : s.lockSound L) {fr fr' : Frame} {rest : List Frame}
    (hL : L a = (fr :: rest).filter Frame.locked) (hadv : fr.Advances a s fr' t) :
    t.lockSound (Function.update L a ((fr' :: rest).filter Frame.locked)) := by
  unfold Frame.Advances at hadv
  cases hfr : fr.locked <;> cases hfr' : fr'.locked <;> simp only [hfr, hfr'] at hadv <;>
    simp only [List.filter_cons, hfr, hfr', if_true, Bool.false_eq_true, if_false] at hL ⊢
  case false.false =>
    obtain ⟨hlock, hcalm⟩ := hadv
    rw [← hL, Function.update_eq_self]
    exact h.calmer hlock hcalm
  case false.true =>
    obtain ⟨hfree, hheld, hduring⟩ := hadv
    obtain ⟨hnil, hset⟩ := (State.lockSound_of_free hfree).mp h
    refine (State.lockSound_of_held hheld).mpr ⟨fr', fun b => ?_, hduring hset⟩
    rw [← hL, hnil, Function.update_apply, hnil]
  case true.true =>
    obtain ⟨hlock, hduring⟩ := hadv
    obtain ⟨hheld, hd, hrest, hothers⟩ := h.of_locked hL
    refine (State.lockSound_of_held (hlock.trans hheld)).mpr ⟨fr', fun b => ?_, hduring hd⟩
    rw [hrest, Function.update_apply]
    exact ite_congr rfl (fun _ => rfl) (hothers b)
  case true.false =>
    obtain ⟨hlock, hset⟩ := hadv
    obtain ⟨hheld, hd, hrest, hothers⟩ := h.of_locked hL
    refine (State.lockSound_of_free (hlock.trans (unlock_lock_of_holder hheld))).mpr ⟨fun b => ?_, hset hd⟩
    rw [hrest, Function.update_apply]
    split
    · rfl
    · exact hothers b ‹_›

end

/-! ## The invariant, with no nested WRITE outside a call

What the invariant leaves open, and why a step does not keep it alone, is the latch for the nested WRITE of a READ that is not in
a call; with that latch empty there, every step keeps both. -/

/-- No READ in flight has a nested WRITE outside its two calls (rule R23). -/
def State.nestedOnlyInCalls (s : State) : Prop := ∀ c ∈ s.callers, ∀ fr ∈ c.stack, fr.nestedOnlyInCalls

/-- What is kept of each operation in flight. -/
def Frame.kept (fr : Frame) : Prop := fr.targetSet ∧ fr.nestedOnlyInCalls

/-- The invariant of a run, with no nested WRITE outside a call. -/
def State.Sound (s : State) : Prop := s.Inv ∧ s.nestedOnlyInCalls

theorem State.sound_iff {s : State} :
    s.Sound ↔ (∀ c ∈ s.callers, ∀ fr ∈ c.stack, fr.kept) ∧ s.lockSound (lockedFrames s.callers) ∧ s.handlerAccounted := by
  constructor
  · rintro ⟨⟨htargets, hacc, hduring, hhandler⟩, hnested⟩
    exact ⟨fun c hc fr hfr => ⟨htargets c hc fr hfr, hnested c hc fr hfr⟩, hacc.lockSound hduring, hhandler⟩
  · rintro ⟨hkept, hlock, hhandler⟩
    exact ⟨⟨fun c hc fr hfr => (hkept c hc fr hfr).1, hlock.lockAccounted, hlock.duringLockHolds, hhandler⟩,
      fun c hc fr hfr => (hkept c hc fr hfr).2⟩

section
variable {s t : State} {a : Nat}

theorem State.Sound.handlerAccounted (h : s.Sound) : s.handlerAccounted := by
  obtain ⟨⟨-, -, -, hhandler⟩, -⟩ := h
  exact hhandler

/-- The invariant is kept where the agents and the lock are left alone, and the shared state but for a disarm. -/
theorem State.Sound.calmer (h : s.Sound) (hcallers : t.callers = s.callers) (hlock : t.lock = s.lock)
    (hst : s.Calmer t) (hhandler : t.handlerAccounted) : t.Sound := by
  obtain ⟨hkept, hsound, -⟩ := State.sound_iff.mp h
  exact State.sound_iff.mpr ⟨by rwa [hcallers], by rw [hcallers]; exact hsound.calmer hlock hst, hhandler⟩

theorem lockedFrames_modifyCaller {c : Caller} (hc : s.callers[a]? = some c) (f : Caller → Caller) :
    lockedFrames (s.modifyCaller a f).callers =
      Function.update (lockedFrames s.callers) a ((f c).stack.filter Frame.locked) := by
  obtain ⟨ha, -⟩ := List.getElem?_eq_some_iff.mp hc
  funext b
  rw [modifyCaller_callers hc, Function.update_apply]
  split
  case isTrue hb => subst hb; simp [lockedFrames, ha]
  case isFalse hb => simp [lockedFrames, Ne.symm hb]

/-- The invariant is kept where one agent's record is changed as the lock's account says. -/
theorem State.sound_modifyCaller {c : Caller} (hc : s.callers[a]? = some c) (f : Caller → Caller)
    (hkept : ∀ c ∈ s.callers, ∀ fr ∈ c.stack, fr.kept) (hf : ∀ fr ∈ (f c).stack, fr.kept)
    (hlock : s.lockSound (Function.update (lockedFrames s.callers) a ((f c).stack.filter Frame.locked)))
    (hhandler : s.handlerAccounted) : (s.modifyCaller a f).Sound := by
  refine State.sound_iff.mpr ⟨fun d hd => ?_, ?_, by simpa [State.handlerAccounted] using hhandler⟩
  · rw [modifyCaller_callers hc] at hd
    rcases List.mem_or_eq_of_mem_set hd with hd | rfl
    · exact hkept d hd
    · exact hf
  · rw [lockedFrames_modifyCaller hc]
    exact hlock.calmer (by simp) (by simp [State.Calmer, State.SameLinkAndFlags])

/-- The invariant is kept where an agent's operations inside their locked section stay the same. -/
theorem State.Sound.modifyCaller (h : s.Sound) (f : Caller → Caller)
    (hf : ∀ c, (∀ fr ∈ c.stack, fr.kept) → ∀ fr ∈ (f c).stack, fr.kept)
    (hlocked : ∀ c, (f c).stack.filter Frame.locked = c.stack.filter Frame.locked) : (s.modifyCaller a f).Sound := by
  obtain ⟨hkept, hsound, hhandler⟩ := State.sound_iff.mp h
  cases hc : s.callers[a]? with
  | none => simpa [State.modifyCaller, hc] using h
  | some c =>
    refine State.sound_modifyCaller hc f hkept (hf c (hkept c (List.mem_of_getElem? hc))) ?_ hhandler
    rwa [hlocked, ← lockedFrames_of_caller hc, Function.update_eq_self]

/-! ### The turn of an operation -/

/-- An operation is accepted outside its locked section and outside its calls. -/
theorem startFrame_outside {p : Params} {i : Instr} {fr : Frame} (h : startFrame p i = some fr) :
    fr.nestedOnlyInCalls ∧ fr.locked = false := by
  cases i <;> simp only [startFrame, Option.ite_none_right_eq_some, Option.some.injEq, reduceCtorEq] at h
  case doze | dozeSuspend => obtain ⟨-, rfl⟩ := h; exact ⟨trivial, rfl⟩
  case enable | disable | enterLp | exitLp | write => cases h; exact ⟨trivial, rfl⟩
  case read => cases h; exact ⟨fun _ _ => rfl, rfl⟩

/-- A burst of the operation in flight keeps the invariant. In between the agent's record is that before the burst, so what is
kept is said of the latches that the micro-steps have come to. -/
theorem burst_sound {c : Caller} {fr : Frame} {rest : List Frame} {n : Nat} (h : s.Sound)
    (hc : s.callers[a]? = some c) (hstack : c.stack = fr :: rest) (ht : burst a id frameStep n fr s = .next t) :
    t.Sound := by
  obtain ⟨hkept, hsound, hhandler⟩ := State.sound_iff.mp h
  have hfr : ∀ fr' ∈ fr :: rest, fr'.kept := hstack ▸ hkept c (List.mem_of_getElem? hc)
  have hrest : ∀ fr' ∈ rest, fr'.kept := fun fr' h' => hfr fr' (List.mem_cons_of_mem _ h')
  refine burst_next (fun fr v => v.callers = s.callers ∧ fr.kept ∧ v.handlerAccounted ∧
    v.lockSound (Function.update (lockedFrames s.callers) a ((fr :: rest).filter Frame.locked))) State.Sound ?_ ?_ ?_
    ⟨rfl, hfr fr (by simp), hhandler, ?_⟩ ht
  · intro fr v fr' v' ⟨hcallers, ⟨htarget, hnested⟩, hhandler, hlock⟩ hm
    have hadv := frameStep_advances htarget hnested a v
    have htarget' := frameStep_targetSet htarget a v
    have hspares := frameStep_sparesAgents a fr v
    rw [hm] at hadv htarget' hspares
    obtain ⟨hadv, hnested'⟩ := hadv
    refine ⟨hspares.1.trans hcallers, ⟨htarget', hnested'⟩, hhandler.of_sparesAgents hspares, ?_⟩
    simpa using hlock.advances (by simp) hadv
  · intro fr v ⟨hcallers, hfr, hhandler, hlock⟩
    refine State.sound_modifyCaller (c := c) (by rwa [hcallers]) _ (by rwa [hcallers]) ?_ ?_ hhandler
    · simpa [hstack] using ⟨hfr, hrest⟩
    · simpa [hstack, hcallers] using hlock
  · rintro fr v r v' ⟨hcallers, -, hhandler, hlock⟩ hm
    obtain ⟨hout, rfl⟩ := frameStep_ret hm
    refine State.sound_modifyCaller (c := c) (by rwa [hcallers]) _ (by rwa [hcallers]) ?_ ?_ hhandler
    · simpa [hstack] using hrest
    · simpa [hstack, hcallers, hout] using hlock
  · rwa [← hstack, ← lockedFrames_of_caller hc, Function.update_eq_self]

theorem exec_sound {i : Instr} (h : s.Sound) (ht : exec i s = .next t) : t.Sound := by
  rcases exec_next ht with ⟨-, rfl⟩ | ⟨c, -, -, -, rfl⟩ | ⟨c, fr, hc, -, hstart, ht⟩ | ⟨c, fr, rest, hc, -, hstack, ht⟩
  · exact h
  · exact h.modifyCaller _ (fun _ hc => hc) (fun _ => rfl)
  · obtain ⟨hnested, hout⟩ := startFrame_outside hstart
    have hkept : fr.kept := ⟨startFrame_targetSet hstart, hnested⟩
    have haccepted : (s.accept s.cur fr).Sound :=
      h.modifyCaller _ (fun c hc => by simpa using ⟨hkept, hc⟩) (fun c => by simp [hout])
    have hc' : (s.accept s.cur fr).callers[s.cur]? = some { c with port := none, stack := fr :: c.stack } := by
      obtain ⟨ha, -⟩ := List.getElem?_eq_some_iff.mp hc
      simp [State.accept, modifyCaller_callers hc, ha]
    exact burst_sound haccepted hc' rfl ht
  · exact burst_sound h hc hstack ht

/-! ### The other turns -/

/-- The handler's run holds the spinlock and does not touch the line (rules R37, R261, R271). -/
theorem irqStep_handlerAccounted (h : s.handlerAccounted) :
    (irqStep s.irq s).GoesOn fun f u => (u.setIrq f).handlerAccounted := by
  obtain ⟨hbusy, hen⟩ := h
  cases hl : s.irq.label
  case h1 => cases hpd : s.pdActive <;> simp_all [irqStep, State.handlerAccounted, IrqAgent.goto]
  all_goals simp_all [irqStep, State.handlerAccounted, IrqAgent.goto, apply_ite]

theorem irqStep_ne_ret (f : IrqAgent) (r : Result) : irqStep f s ≠ .ret r t := by
  cases hl : f.label <;> simp [irqStep, hl, ite_eq_iff]

theorem irqTurn_handlerAccounted (h : s.handlerAccounted) (ht : irqTurn s = .next t) : t.handlerAccounted := by
  have hstep := irqStep_handlerAccounted h
  unfold irqTurn at ht
  split at ht <;> cases ht
  · exact h
  · rename_i hm
    rwa [hm] at hstep
  · exact absurd ‹_› (irqStep_ne_ret _ _)

/-- `t` has the caller agents and the lock of `s`, and is calmer: as far as the handler and the watchdog may write. -/
def State.SameOutsideHandler (s t : State) : Prop := t.callers = s.callers ∧ t.lock = s.lock ∧ s.Calmer t

theorem irqTurn_sameOutsideHandler (ht : irqTurn s = .next t) : s.SameOutsideHandler t := by
  have hsame : s.SameOutsideHandler s := ⟨rfl, rfl, ⟨rfl, rfl, rfl, rfl⟩, id⟩
  refine irqTurn_keeps hsame ?_ (fun _ _ h => h) ht
  cases hl : s.irq.label
  case h3 =>
    cases hbit : pendingBit s.irq.p 0 <;>
      simp [irqStep, hl, hbit, State.SameOutsideHandler, State.Calmer, State.SameLinkAndFlags]
  all_goals simp [irqStep, hl, State.SameOutsideHandler, State.Calmer, State.SameLinkAndFlags, apply_ite]

theorem wdtTurn_keeps_account (h : s.handlerAccounted) (ht : wdtTurn s = .next t) :
    s.SameOutsideHandler t ∧ t.handlerAccounted := by
  refine wdtTurn_keeps (P := fun u => s.SameOutsideHandler u ∧ u.handlerAccounted)
    ⟨⟨rfl, rfl, ⟨rfl, rfl, rfl, rfl⟩, id⟩, h⟩ ?_ (fun _ _ h => h) ht
  simp_all [wdtStep, State.SameOutsideHandler, State.Calmer, State.SameLinkAndFlags, State.handlerAccounted]

theorem runTurn_sound {turn : Turn} (h : s.Sound) (ht : runTurn turn s = .next t) : t.Sound := by
  have hhandler := h.handlerAccounted
  have hsame : s.Calmer s := ⟨⟨rfl, rfl, rfl, rfl⟩, id⟩
  cases turn with
  | caller a more =>
    rcases callerTurn_next ht with rfl | ⟨i, hexec⟩
    · exact h
    · exact exec_sound (s := s.focus a more) (h.calmer rfl rfl hsame hhandler) hexec
  | irq =>
    obtain ⟨hcallers, hlock, hcalm⟩ := irqTurn_sameOutsideHandler ht
    exact h.calmer hcallers hlock hcalm (irqTurn_handlerAccounted hhandler ht)
  | wdt =>
    obtain ⟨⟨hcallers, hlock, hcalm⟩, hhandler'⟩ := wdtTurn_keeps_account hhandler ht
    exact h.calmer hcallers hlock hcalm hhandler'
  | tick | hostStore addr v => cases ht; exact h.calmer rfl rfl hsame hhandler
  | request a r =>
    rcases presentRequest_next ht with rfl | rfl
    · exact h
    · exact h.modifyCaller _ (fun _ hc => hc) (fun _ => rfl)

end

/-- The invariant implies power while the line is enabled or the watchdog armed (rules R246, R262). -/
theorem State.Inv.powered {s : State} (h : s.Inv) : s.powered := by
  obtain ⟨-, -, hduring, -⟩ := h
  unfold State.duringLockHolds at hduring
  split at hduring
  · exact hduring.powered
  · obtain ⟨c, fr, -, -, hfr⟩ := hduring
    exact hfr.powered

theorem step_sound {s t : State} (h : s.Sound) (ht : step s = .next t) : t.Sound := by
  have hhandler := h.handlerAccounted
  have htaken : s.turnTaken.Sound :=
    h.calmer (by simp) (by simp) (by simp [State.Calmer, State.SameLinkAndFlags])
      (by simpa [State.handlerAccounted] using hhandler)
  exact runTurn_sound htaken (step_next ht)

/-- After attach no READ is in flight. -/
theorem reset_sound : State.reset.Sound := by
  refine ⟨resetMeetsTheInvariant.1, fun c hc fr hfr => ?_⟩
  rw [reset_caller_eq_idle hc] at hfr
  cases hfr

/-- What O13 says does hold of every step from a state in which no READ has a nested WRITE outside a call, and so of every step
of a run from attach (`reset_sound`). -/
theorem step_keeps_inv {s t : State} (hinv : s.Inv) (hnested : s.nestedOnlyInCalls) (ht : step s = .next t) :
    (t.Inv ∧ t.nestedOnlyInCalls) ∧
      (t.lock = .free →
        t.phyOn = t.link.onClass ∧ t.irqEnabled = t.link.onClass ∧ (t.wd.armed = true → t.link = .on)) ∧
      (t.wd.armed = true → t.pdActive = true) ∧ (t.irqEnabled = true → t.pdActive = true) := by
  have hsound : t.Sound := step_sound ⟨hinv, hnested⟩ ht
  refine ⟨hsound, fun hfree => ?_, hsound.1.powered⟩
  obtain ⟨⟨-, -, hduring, -⟩, -⟩ := hsound
  rw [State.duringLockHolds, hfree] at hduring
  obtain ⟨-, hphy, hirq, hwd⟩ := hduring
  exact ⟨hphy, hirq, hwd⟩

end Sys2Proof.Machine
end

section
/-! PROOFS. A READ that carries a nested WRITE into its first call (O13). -/

namespace Sys2Proof.Machine

/-- A READ about to make its first call, whose latch for the nested WRITE already holds one inside its locked section. The
invariant looks at that latch at `R.4` and `R.5` alone, so at `R.3` it allows this (rule R23). -/
def staleNestedRead : ReadFrame :=
  { ReadFrame.start 0 0 0 0 none with
    ctl := ⟨.r3, .ok⟩
    sub := some { WriteFrame.start 0 0 0 0 none with ctl := ⟨.w2, .ok⟩ } }

/-- The link up and the lock free, and the only agent with that READ in flight and its turn next. -/
def staleNestedState : State :=
  { State.reset with
    link := .on, pdActive := true, phyOn := true, irqEnabled := true
    callers := [⟨none, none, [.read staleNestedRead]⟩]
    turns := [.caller 0 0] }

/-- The state after that turn, `R.3`: the READ is in its first call and its nested WRITE past `lock()`, the lock still free. -/
def staleNestedNext : State :=
  { staleNestedState with
    hist := [.clearInterrupt irqRxDataDone]
    callers := [⟨none, none, [.read { staleNestedRead with ctl := ⟨.r4, .ok⟩ }]⟩]
    turns := [] }

theorem staleNestedState_inv : staleNestedState.Inv := by
  have hstack {c : Caller} (hc : c ∈ staleNestedState.callers) : c.stack = [.read staleNestedRead] := by
    rw [List.mem_singleton.mp hc]
  refine ⟨fun c hc fr hfr => ?_, ⟨fun a c hc => ?_, fun a ha => ?_⟩, ?_, ?_⟩
  · rw [hstack hc, List.mem_singleton] at hfr
    rw [hfr]
    trivial
  · rw [hstack (List.mem_of_getElem? hc)]
    rfl
  · cases ha
  · exact ⟨rfl, rfl, rfl, fun _ => rfl⟩
  · exact ⟨by decide, fun h => by cases h⟩

theorem step_staleNestedState : step staleNestedState = .next staleNestedNext := rfl

/-- Refutes O13: the invariant does not say that a READ comes to its first call without a nested WRITE, so a step of `R.3` can
lead to a locked section with the lock free. No run from attach comes there, and there the invariant is kept:
`step_keeps_inv`. -/
theorem not_stepKeepsTheInvariant : ¬ Obligations.StepKeepsTheInvariant := by
  intro h
  obtain ⟨⟨-, ⟨hcount, -⟩, -, -⟩, -⟩ := h _ _ staleNestedState_inv step_staleNestedState
  exact absurd (hcount 0 _ rfl) (by decide)

end Sys2Proof.Machine
end

section
/-! PROOFS. Which requests are refused (O10), and a WRITE carried through: outside ON, in ON up to its end or its wait,
and from its wait to its end (O37 to O44). -/

namespace Sys2Proof.Machine

/-! ## Which requests are refused (rules R186, R219, R298) -/

section
variable {F : Type} {a n : Nat} {wrap : F → Frame} {micro : Nat → F → State → Micro F} {r : Refusal}

/-- An operation is not refused once it is in flight. -/
theorem burst_ne_refused (f : F) (s : State) : burst a wrap micro n f s ≠ .refused r := by
  induction n generalizing f s with
  | zero => nofun
  | succ n ih =>
    rw [burst_succ]
    cases micro a f s with
    | cont f' s' => exact ih f' s'
    | blocked | fault | ret => nofun

theorem admitThen_ne_refused (start : Option F) (s : State) : admitThen a wrap micro n start s ≠ .refused r := by
  cases start with
  | none =>
    rw [admitThen_none]
    nofun
  | some f =>
    cases n with
    | zero => nofun
    | succ n => exact burst_ne_refused f _

end

section
variable {F : Type} {refusal : Option Refusal} {start : Option F} {view : Frame → Option F} {wrap : F → Frame}
  {micro : Nat → F → State → Micro F} {s : State} {c : Caller} (hc : s.callers[s.cur]? = some c)
include hc

/-- A request that an agent accepts is refused exactly when there is a reason to. -/
theorem conduct_refused_iff (hacc : c.accepts = true) :
    (∃ r, conduct refusal start view wrap micro s = .refused r) ↔ refusal.isSome = true := by
  cases refusal with
  | some r => simp [conduct, hc, hacc]
  | none => simp [conduct, hc, hacc, admitThen_ne_refused]

/-- A request other than the operation in flight is refused (rule R298). -/
theorem conduct_of_other {fr : Frame} {rest : List Frame} (hacc : c.accepts = false) (hstack : c.stack = fr :: rest)
    (hview : view fr = none) : conduct refusal start view wrap micro s = .refused .inFlight := by
  simp [conduct, hc, hacc, hstack, hview]

end

/-- A WRITE is refused exactly when its operands have no meaning (rule R186). -/
theorem writeRefusal_isSome_iff (p : Params) (ty d0 d1 : Byte) (len : Half) (buf : Option BufHandle) :
    (writeRefusal p ty len buf).isSome = true ↔ (Instr.write ty d0 d1 len buf).wellFormed p = false := by
  by_cases hfits : len.toNat ≤ p.plCapacity ∧ len.toNat ≤ bufLength buf
  · simp [writeRefusal, Instr.wellFormed, hfits]
  · cases hcls : p.classify ty <;> simp_all [writeRefusal, Instr.wellFormed]

/-- A READ is refused exactly when its operands have no meaning (rule R219). -/
theorem readRefusal_isSome_iff (p : Params) (ty addr : Byte) (maxLen cap : Half) (buf : Option BufHandle) :
    (readRefusal cap buf).isSome = true ↔ (Instr.read ty addr maxLen cap buf).wellFormed p = false := by
  by_cases hfits : cap.toNat ≤ bufLength buf <;> simp [readRefusal, Instr.wellFormed, hfits]

/-- A request that an agent accepts is refused exactly when its operands have no meaning (rule R298). -/
theorem exec_refused_iff {i : Instr} {s : State} {c : Caller} (hc : s.callers[s.cur]? = some c)
    (hacc : c.accepts = true) : (∃ r, exec i s = .refused r) ↔ i.wellFormed s.par = false := by
  cases i with
  | enable | disable | enterLp | exitLp | doze | dozeSuspend =>
    refine (conduct_refused_iff (refusal := none) hc hacc).trans ?_
    simp [Instr.wellFormed]
  | write ty d0 d1 len buf => exact (conduct_refused_iff hc hacc).trans (writeRefusal_isSome_iff ..)
  | read ty addr maxLen cap buf => exact (conduct_refused_iff hc hacc).trans (readRefusal_isSome_iff ..)
  | reserved6 | reserved7 | reservedA | reservedB | reservedC | reservedD | reservedE | reservedF =>
    rw [exec_of_no_startFrame hc hacc rfl]
    simp [Instr.wellFormed]

/-- While an operation is in flight, one with another code is refused (rule R298). -/
theorem exec_of_other {i : Instr} {s : State} {c : Caller} {fr : Frame} {rest : List Frame}
    (hc : s.callers[s.cur]? = some c) (hacc : c.accepts = false) (hstack : c.stack = fr :: rest)
    (hop : fr.op ≠ i.opcode) : exec i s = .refused .inFlight := by
  cases i with
  | enable | disable | enterLp | exitLp | doze | dozeSuspend =>
    refine conduct_of_other (refusal := none) hc hacc hstack ?_
    -- the latches of an operation are found in its own frame alone
    cases fr <;>
      simp_all [Frame.op, Instr.opcode, Frame.asEnable, Frame.asDisable, Frame.asEnterLp, Frame.asExitLp, Frame.asDoze,
        Frame.asDozeSuspend]
  | write | read =>
    refine conduct_of_other hc hacc hstack ?_
    cases fr <;> simp_all [Frame.op, Instr.opcode, Frame.asWrite, Frame.asRead]
  | reserved6 | reserved7 | reservedA | reservedB | reservedC | reservedD | reservedE | reservedF =>
    show answerUnsupported s = _
    simp [answerUnsupported, hc, hacc]

/-- Settles O10: a request is refused for its operands at acceptance, and for its code while another is in flight. -/
theorem refusedExactlyWithoutMeaning : Obligations.RefusedExactlyWithoutMeaning :=
  fun _ _ _ hc => ⟨exec_refused_iff hc, fun _ _ hacc hstack hop => exec_of_other hc hacc hstack hop⟩

/-! ## An `Idle` agent's WRITE (rules R170 to R182) -/

/-- `W.13`: a WRITE whose micro-steps lead there returns its result (rule R185). -/
theorem burst_write_returns {a m q : Nat} {f g : WriteFrame} {s s' : State} {r : Result}
    (h : micros a writeStep m f s = some (g, s')) (hg : g.ctl = ⟨.w13, r⟩) (hq : m < q) :
    burst a .write writeStep q f s = .next (s'.deliver a r) := by
  obtain ⟨n, hn⟩ : ∃ n, q - m = n + 1 := ⟨q - m - 1, by omega⟩
  rw [burst_of_micros h (by omega), hn, burst_succ]
  simp only [writeStep, hg]

/-- `W.0` to `W.12` outside ON: `NotReady`, the lock taken and released again (rules R171, R172, R185). -/
theorem writeStep_not_ready (a : Nat) {s : State} (f : WriteFrame) (hl : f.ctl.label = .w0) (hfree : s.lock = .free)
    (hlink : s.link ≠ .on) :
    ∃ g, g.ctl = ⟨.w13, .notReady⟩ ∧
      micros a writeStep 5 f s =
        some (g, { s with hist := s.hist ++ [.blockLowPowerExit, .unblockLowPowerExit] }) := by
  refine ⟨{ f with ctl := ⟨.w13, .notReady⟩ }, rfl, ?_⟩
  simp [micros, writeStep, hl, WriteFrame.goto, WriteFrame.raise, Ctl.goto, Ctl.raise, Ctl.finish, lockThen, hfree,
    hlink, State.record, State.setLock, State.unlock]

/-- The state in which an `Idle` agent has accepted a WRITE. -/
def State.writeAccepted (s : State) (c : Caller) (ty d0 d1 : Byte) (len : Half) (buf : Option BufHandle) : State :=
  { s with callers := s.acceptedCallers c (.write (.start ty d0 d1 len buf)) }

theorem writeAccepted_writeSent (s : State) (c : Caller) (a : Nat) (ty d0 d1 : Byte) (len : Half)
    (buf : Option BufHandle) :
    (s.writeAccepted c ty d0 d1 len buf).writeSent a ty d0 d1 len buf =
      { s.writeSent a ty d0 d1 len buf with callers := s.acceptedCallers c (.write (.start ty d0 d1 len buf)) } := rfl

section
variable {s : State} {c : Caller} (hidle : s.idleAs c) {ty d0 d1 : Byte} {len : Half} {buf : Option BufHandle}
  (hwf : (Instr.write ty d0 d1 len buf).wellFormed s.par = true)
include hidle hwf

/-- An `Idle` agent accepts a WRITE and goes on with it. -/
theorem exec_write_of_idle (hq : 0 < s.quantum) :
    exec (.write ty d0 d1 len buf) s =
      burst s.cur .write writeStep s.quantum (.start ty d0 d1 len buf) (s.writeAccepted c ty d0 d1 len buf) := by
  have hfits : writeRefusal s.par ty len buf = none := by
    simpa [hwf] using writeRefusal_isSome_iff s.par ty d0 d1 len buf
  obtain ⟨n, hn⟩ : ∃ n, s.quantum = n + 1 := ⟨s.quantum - 1, by omega⟩
  show conduct (writeRefusal s.par ty len buf) _ _ _ _ s = _
  rw [hfits, conduct_of_idle hidle _ _ _ _ hn, ← hn]
  rfl

variable {m : Nat} {g : WriteFrame} {t : State}
  (h : micros s.cur writeStep m (.start ty d0 d1 len buf) (s.writeAccepted c ty d0 d1 len buf) = some (g, t))
  (hm : m < s.quantum) (ht : t.callers = s.acceptedCallers c (.write (.start ty d0 d1 len buf)))
include h hm ht

/-- A WRITE of an `Idle` agent whose micro-steps lead to `W.13` returns its result (rule R185). -/
theorem exec_write_ends {r : Result} (hg : g.ctl = ⟨.w13, r⟩) :
    exec (.write ty d0 d1 len buf) s = .next { t with callers := s.answeredCallers c r } := by
  rw [exec_write_of_idle hidle hwf (by omega), burst_write_returns h hg hm, deliver_of_accepted hidle ht]

/-- A WRITE of an `Idle` agent whose micro-steps lead to `W.9`, the signal not fired, stays there (rule R236). -/
theorem exec_write_waits (hl : g.ctl.label = .w9) (hph : t.sigPh.done = false) (ht0 : g.t0 = t.now) :
    exec (.write ty d0 d1 len buf) s = .next { t with callers := s.acceptedCallers c (.write g) } := by
  obtain ⟨hlt, -⟩ := List.getElem?_eq_some_iff.mp hidle.1
  rw [exec_write_of_idle hidle hwf (by omega), burst_of_micros h (by omega),
    burst_of_blocked (writeStep_waits s.cur hl hph ht0)]
  simp [State.saveTop, State.modifyCaller, State.setCallers, ht, State.acceptedCallers, hlt]

end

/-- Settles O37: the state gate ends the WRITE before any register primitive. -/
theorem writeOutsideOnIsNotReady : Obligations.WriteOutsideOnIsNotReady := by
  intro ty d0 d1 len buf s c hidle hwf hfree hlink hq
  obtain ⟨g, hg, hends⟩ := writeStep_not_ready s.cur (s := s.writeAccepted c ty d0 d1 len buf)
    (.start ty d0 d1 len buf) rfl hfree hlink
  exact exec_write_ends hidle hwf hends (by omega) rfl hg

/-- Settles O38: such a WRITE is never refused, and has no packet. -/
theorem writeOfUnrecognizedType : Obligations.WriteOfUnrecognizedType := by
  intro ty d0 d1 len buf s c hidle hfree hlink hpd hcls hq
  have hwf : (Instr.write ty d0 d1 len buf).wellFormed s.par = true := by simp [Instr.wellFormed, hcls]
  obtain ⟨g, hg, hends⟩ := writeStep_rejects s.cur (s := s.writeAccepted c ty d0 d1 len buf)
    ty d0 d1 len buf hfree hlink hpd hcls
  exact exec_write_ends hidle hwf hends (by omega) rfl hg

/-- Settles O39: the packet is sent, and the FIFO answers that it is writable. -/
theorem writeWithoutWaitCompletes : Obligations.WriteWithoutWaitCompletes := by
  intro ty d0 d1 len buf s c hidle hwf hfree hlink hpd hcls hdec hans hq
  obtain ⟨m, hm, hsend⟩ := writeStep_sends s.cur (s := s.writeAccepted c ty d0 d1 len buf)
    ty d0 d1 len buf hfree hlink hpd hcls
  obtain ⟨g, hg, hends⟩ := writeStep_need_not_wait s.cur (s := s.writeAccepted c ty d0 d1 len buf)
    ty d0 d1 len buf hpd hdec hans
  have hrun := (micros_trans hsend 4).trans hends
  rw [State.answered_eq] at hrun
  rw [exec_write_ends hidle hwf hrun (by omega) rfl hg, writeAccepted_writeSent]
  simp [afterUnwaitedWrite, State.writeSent, State.answered_eq, hfree]

/-- Settles O40: the packet is sent, and the WRITE comes to its wait with or without asking the FIFO. -/
theorem writeThatMustWaitBlocks : Obligations.WriteThatMustWaitBlocks := by
  intro ty d0 d1 len buf s c hidle hwf hfree hlink hpd hcls hq
  obtain ⟨m, hm, hsend⟩ := writeStep_sends s.cur (s := s.writeAccepted c ty d0 d1 len buf)
    ty d0 d1 len buf hfree hlink hpd hcls
  refine ⟨fun hdec => ?_, fun hdec hans => ?_⟩
  · have hwait := (micros_trans hsend 2).trans (writeStep_must_wait s.cur ty d0 d1 len buf hdec)
    rw [exec_write_waits hidle hwf hwait (by omega) rfl rfl rfl rfl, writeAccepted_writeSent]
    simp only [whileWriteWaits, Bool.false_eq_true, if_false, List.append_nil]
    rfl
  · have hwait := (micros_trans hsend 2).trans (writeStep_must_wait_asked s.cur ty d0 d1 len buf hpd hdec hans)
    rw [State.answered_eq] at hwait
    rw [exec_write_waits hidle hwf hwait (by omega) rfl rfl rfl rfl, writeAccepted_writeSent]
    simp only [whileWriteWaits, State.answered_eq, if_true]
    rfl

/-! ## A WRITE that waits (rules R182 to R185) -/

/-- A WRITE in flight goes on with its micro-steps. -/
theorem exec_write_of_runs {s : State} {c : Caller} {f : WriteFrame} {rest : List Frame}
    (h : s.runs c (.write f) rest) :
    exec (Frame.write f).instr s = burst s.cur .write writeStep (s.quantum + 1) f s := by
  obtain ⟨hc, hstack, hacc⟩ := h
  show conduct _ _ _ _ _ s = _
  simp [conduct, hc, hacc, hstack, Frame.asWrite]

/-- A WRITE in flight whose micro-steps lead to `W.13` returns its result. -/
theorem exec_write_returns {s t : State} {c : Caller} {f g : WriteFrame} {rest : List Frame} {m : Nat} {r : Result}
    (hruns : s.runs c (.write f) rest) (h : micros s.cur writeStep m f s = some (g, t)) (hg : g.ctl = ⟨.w13, r⟩)
    (hm : m ≤ s.quantum) (ht : t.callers = s.callers) :
    exec (Frame.write f).instr s = .next { t with callers := s.returnedCallers c rest r } := by
  rw [exec_write_of_runs hruns, burst_write_returns h hg (by omega), deliver_of_runs hruns ht]

/-- Settles O41: the wait ends signaled. -/
theorem writeCompletesOnSignal : Obligations.WriteCompletesOnSignal := by
  intro s c f rest hruns hl hheld hph hnow hq
  obtain ⟨g, hg, hends⟩ := writeStep_signaled s.cur hl hph hnow hheld
  rw [exec_write_returns hruns hends hg (by omega) rfl]
  simp [afterCommand]

section
variable (a : Nat) {s : State} {f : WriteFrame}

/-- `W.9` and `W.9a`: a WRITE whose time has come with the signal not fired comes to `W.10`, if it is not there (rule
R183). -/
theorem writeStep_times_out
    (h : (f.ctl.label = .w9 ∧ s.sigPh.done = false ∧ f.t0 + s.par.wrTimeout.val ≤ s.now) ∨ f.ctl.label = .w10) :
    ∃ m ≤ 2, ∃ g, g.ctl.label = .w10 ∧ micros a writeStep m f s = some (g, s) := by
  rcases h with ⟨hl, hph, hnow⟩ | hl
  · refine ⟨2, le_rfl, { f with ctl := ⟨.w10, f.ctl.res⟩, wres := .timedOut }, rfl, ?_⟩
    have hwait := waitThen_of_timeout hnow (F := WriteFrame)
    simp only [micros, writeStep, hl, hph, hwait]
    rfl
  · exact ⟨0, by omega, f, hl, rfl⟩

variable (hl : f.ctl.label = .w10) (hheld : s.lock = .held a) (hpd : s.pdActive = true)
include hl hheld hpd

/-- `W.10` to `W.12` with the FIFO already empty: disarmed, reset, `Ok` (rules R183, R185). -/
theorem writeStep_finds_fifo_empty (hans : asBool s.answer = true) :
    ∃ g, g.ctl = ⟨.w13, .ok⟩ ∧
      micros a writeStep 5 f s =
        some (g, { s.answered with
          lock := .free, sigPh := ⟨false⟩, wd := s.disarmedWd
          hist := s.hist ++ [.headerFifoEmpty true, .unblockLowPowerExit] }) := by
  refine ⟨{ f with ctl := ⟨.w13, .ok⟩, e := true }, rfl, ?_⟩
  simp [micros, writeStep, hl, regAsk_of_power hpd, hans, State.answered_eq, WriteFrame.goto, WriteFrame.finish,
    Ctl.goto, Ctl.finish, State.record, State.disarmWd, State.setWd, State.resetPh, State.setSigPh, State.unlock,
    State.setLock, hheld, State.disarmedWd]

/-- `W.10` to `W.12` with the FIFO not empty: one dump in ON, `Timeout` (rules R184, R185). -/
theorem writeStep_finds_fifo_full (hans : asBool s.answer = false) :
    ∃ g, g.ctl = ⟨.w13, .timeout⟩ ∧
      micros a writeStep 7 f s =
        some (g, { s.answered with
          lock := .free
          hist := s.hist ++ .headerFifoEmpty false :: (if s.link = .on then [.dump .writeTimeout] else []) ++
            [.unblockLowPowerExit] }) := by
  refine ⟨{ f with ctl := ⟨.w13, .timeout⟩, e := false }, rfl, ?_⟩
  by_cases hlink : s.link = .on <;>
    simp [micros, writeStep, hl, regAsk_of_power hpd, dump, reg, hpd, hans, hlink, State.answered_eq, WriteFrame.goto,
      WriteFrame.raise, Ctl.goto, Ctl.raise, Ctl.finish, State.record, State.unlock, State.setLock, hheld]

end

/-- Settles O42: the wait times out, or has, and the FIFO answers that it is empty. -/
theorem writeTimeoutWithEmptyFifo : Obligations.WriteTimeoutWithEmptyFifo := by
  intro s c f rest hruns hl hheld hpd hans hq
  obtain ⟨m, hm, g, hg, hlate⟩ := writeStep_times_out s.cur hl
  obtain ⟨g', hg', hends⟩ := writeStep_finds_fifo_empty s.cur hg hheld hpd hans
  rw [State.answered_eq] at hends ⊢
  rw [exec_write_returns hruns ((micros_trans hlate 5).trans hends) hg' (by omega) rfl]
  simp [afterCommand, State.returnedCallers]

/-- Settles O43: the wait times out, or has, and the FIFO answers that it is not empty. -/
theorem writeGenuineTimeout : Obligations.WriteGenuineTimeout := by
  intro s c f rest hruns hl hheld hpd hans hq
  obtain ⟨m, hm, g, hg, hlate⟩ := writeStep_times_out s.cur hl
  obtain ⟨g', hg', hends⟩ := writeStep_finds_fifo_full s.cur hg hheld hpd hans
  rw [State.answered_eq] at hends ⊢
  rw [exec_write_returns hruns ((micros_trans hlate 7).trans hends) hg' (by omega) rfl]
  simp [afterCommand, State.returnedCallers]

/-! ## A wait that goes on (rules R182, R204 to R206, R236) -/

/-- Saving the latches that are in flight already changes nothing. -/
theorem saveTop_same {s : State} {c : Caller} {fr : Frame} {rest : List Frame} (h : s.runs c fr rest) :
    s.saveTop s.cur fr = s := by
  have ⟨hc, hstack, _⟩ := h
  have hsame : ({ c with stack := fr :: rest } : Caller) = c := by rw [← hstack]
  obtain ⟨hlt, hget⟩ := List.getElem?_eq_some_iff.mp hc
  rw [saveTop_of_runs h rfl, hsame, ← hget, List.set_getElem_self]

section
variable (a : Nat) {s : State}

/-- `W.9` before the signal and the time (rule R236). -/
theorem writeStep_keeps_waiting {g : WriteFrame} (hl : g.ctl.label = .w9) (hph : s.sigPh.done = false)
    (hnow : s.now < g.t0 + s.par.wrTimeout.val) : writeStep a g s = .blocked := by
  simp only [writeStep, hl, hph, waitThen_of_neither hnow]

/-- `R.6` before the signal and the time (rule R236). -/
theorem readStep_keeps_waiting {f : ReadFrame} (hl : f.ctl.label = .r6) (hrd : s.sigRd.done = false)
    (hnow : s.now < f.t0 + s.par.rdTimeout.val) : readStep a f s = .blocked := by
  simp only [readStep, hl, hrd, waitThen_of_neither hnow]

/-- `R.4` and `R.5` while the nested WRITE is not enabled (rule R23). -/
theorem readStep_blocked_of_nested {f : ReadFrame} {g : WriteFrame} (hl : f.ctl.label = .r4 ∨ f.ctl.label = .r5)
    (hsub : f.sub = some g) (h : writeStep a g s = .blocked) : readStep a f s = .blocked := by
  rcases hl with hl | hl <;> simp only [readStep, hl, nestedWrite, hsub, h]

end

theorem exec_read_of_blocked {s : State} {c : Caller} {f : ReadFrame} {rest : List Frame}
    (hruns : s.runs c (.read f) rest) (h : readStep s.cur f s = .blocked) : exec (Frame.read f).instr s = .next s := by
  rw [exec_read_of_runs hruns, burst_of_blocked h, saveTop_same hruns]

theorem exec_write_of_blocked {s : State} {c : Caller} {f : WriteFrame} {rest : List Frame}
    (hruns : s.runs c (.write f) rest) (h : writeStep s.cur f s = .blocked) :
    exec (Frame.write f).instr s = .next s := by
  rw [exec_write_of_runs hruns, burst_of_blocked h, saveTop_same hruns]

/-- Settles O44: in each of the three waits the next micro-step is not enabled. -/
theorem waitDoesNotEndEarly : Obligations.WaitDoesNotEndEarly := by
  intro s c rest
  refine ⟨fun f hruns hl hph hnow => ?_, fun f hruns hl hrd hnow => ?_, fun f g hruns hl hsub hg hph hnow => ?_⟩
  · exact exec_write_of_blocked hruns (writeStep_keeps_waiting s.cur hl hph hnow)
  · exact exec_read_of_blocked hruns (readStep_keeps_waiting s.cur hl hrd hnow)
  · exact exec_read_of_blocked hruns
      (readStep_blocked_of_nested s.cur hl hsub (writeStep_keeps_waiting s.cur hg hph hnow))

end Sys2Proof.Machine
end

section
/-! PROOFS. A READ in flight carried through: once its requests have drained or failed (O49, O50), without a response (O51),
and a drain that ends in an error (O54). -/

namespace Sys2Proof.Machine

/-! ## A READ that comes to its end (rule R218) -/

/-- `R.20`: a READ whose micro-steps lead there returns its result. -/
theorem burst_read_returns {a m q : Nat} {f g : ReadFrame} {s s' : State} {r : Result}
    (h : micros a readStep m f s = some (g, s')) (hg : g.ctl = ⟨.r20, r⟩) (hq : m < q) :
    burst a .read readStep q f s = .next (s'.deliver a r) := by
  obtain ⟨n, hn⟩ : ∃ n, q - m = n + 1 := ⟨q - m - 1, by omega⟩
  rw [burst_of_micros h (by omega), hn, burst_succ]
  simp only [readStep, hg]

/-- A READ in flight whose micro-steps lead to `R.20` returns its result. -/
theorem exec_read_returns {s t : State} {c : Caller} {f g : ReadFrame} {rest : List Frame} {m : Nat} {r : Result}
    (hruns : s.runs c (.read f) rest) (h : micros s.cur readStep m f s = some (g, t)) (hg : g.ctl = ⟨.r20, r⟩)
    (hm : m ≤ s.quantum) (ht : t.callers = s.callers) :
    exec (Frame.read f).instr s = .next { t with callers := s.returnedCallers c rest r } := by
  rw [exec_read_of_runs hruns, burst_read_returns h hg (by omega), deliver_of_runs hruns ht]

/-- The latches of a READ with the nested WRITE that it has in flight. -/
theorem ReadFrame.nest_of_sub {f : ReadFrame} {g : WriteFrame} (hsub : f.sub = some g) : f.nest g = f := by
  rw [ReadFrame.nest, ← hsub]

/-! ## After a request packet (rules R204, R205) -/

section
variable (a : Nat) {f : ReadFrame}

/-- At `R.5` the time at which the wait is reached is written anew by every micro-step (rule R236). -/
theorem readStep_second_retimes (hl : f.ctl.label = .r5) (t0 : Nat) (s : State) :
    readStep a { f with t0 := t0 } s = readStep a f s := by
  simp only [readStep, hl, nestedWrite]
  cases f.sub with
  | none => rfl
  | some g => cases hg : writeStep a g s <;> simp only [hg, ReadFrame.finish]

theorem readStep_second_micros (hl : f.ctl.label = .r5) (t0 : Nat) (s : State) (m : Nat) :
    micros a readStep (m + 1) { f with t0 := t0 } s = micros a readStep (m + 1) f s := by
  simp only [micros, readStep_second_retimes a hl]

/-- `R.4`, or `R.5`, and `R.19` once the request packet has failed: its error is the READ's. -/
theorem readStep_request_fails (hl : f.ctl.label = .r4 ∨ f.ctl.label = .r5) {g : WriteFrame} {r : Result} (hr : r ≠ .ok)
    (hg : g.ctl = ⟨.w13, r⟩) (s : State) :
    ∃ f', f'.ctl = ⟨.r20, r⟩ ∧ micros a readStep 2 (f.nest g) s = some (f', s.record .unblockLowPowerExit) := by
  rcases hl with hl | hl
  · refine ⟨{ f with ctl := ⟨.r20, r⟩, sub := none }, rfl, ?_⟩
    simp only [micros, readStep, ReadFrame.nest, hl, nestedWrite, writeStep, hg, if_neg hr]
    rfl
  · exact ⟨_, rfl, readStep_second_fails a f hl hr hg s⟩

end

/-- Settles O49: the nested WRITE is signaled and ends, and the wait for the response is not over in the moment it is
reached. -/
theorem readWaitsForTheResponse : Obligations.ReadWaitsForTheResponse := by
  intro s c f g rest hruns hl hsub hg hheld hph hnow hrd hq
  obtain ⟨g', hg', hsig⟩ := writeStep_signaled s.cur hg hph hnow hheld
  have hsent := (micros_trans (readStep_nested_micros s.cur { f with t0 := s.now } (.inr ⟨hl, rfl⟩) hsig) 1).trans
    (micros_one (readStep_second_sent s.cur { f with t0 := s.now } hl hg' _))
  rw [ReadFrame.nest_of_sub (f := { f with t0 := s.now }) hsub, readStep_second_micros s.cur hl] at hsent
  rw [exec_read_of_runs hruns, burst_of_micros hsent (by omega),
    burst_of_blocked (readStep_waits s.cur _ rfl (by exact hrd) rfl), saveTop_of_runs hruns (by rfl)]

/-- Settles O50: the call latches the error of its WRITE and goes to the exit. -/
theorem readPropagatesTheFirstError : Obligations.ReadPropagatesTheFirstError := by
  intro s c f g rest hruns hl hsub hg hr hq
  obtain ⟨f', hf', hfails⟩ := readStep_request_fails s.cur hl hr (congrArg (Ctl.mk · g.ctl.res) hg) s
  rw [ReadFrame.nest_of_sub hsub] at hfails
  exact exec_read_returns hruns hfails hf' (by omega) rfl

/-- Settles O51: the wait times out, and the exit does not touch the lock. -/
theorem readTimeout : Obligations.ReadTimeout := by
  intro s c f rest hruns hl hrd hnow hq
  have hwait := waitThen_of_timeout hnow (F := ReadFrame)
  have hends : micros s.cur readStep 3 f s =
      some ({ f with ctl := ⟨.r20, .timeout⟩, wres := .timedOut }, s.record .unblockLowPowerExit) := by
    simp only [micros, readStep, hl, hrd, hwait]
    rfl
  exact exec_read_returns hruns hends rfl (by omega) rfl

/-! ## A drain that ends in an error (rules R210, R215, R217, R284) -/

section
variable (a : Nat) {s : State} {f : ReadFrame} (hpd : s.pdActive = true)

/-- `R.18` and `R.19`: the lock is released (rule R218). -/
theorem readStep_exits (hl : f.ctl.label = .r18) (hheld : s.lock = .held a) :
    micros a readStep 2 f s =
      some ({ f with ctl := ⟨.r20, f.ctl.res⟩ },
        { s with lock := .free, hist := s.hist ++ [.unblockLowPowerExit] }) := by
  simp only [micros, readStep, hl, unlock_of_holder hheld]
  rfl

include hpd

/-- `R.9` and `R.10`: a word is popped, and the class of its tag says how the drain goes on (rules R209, R210). -/
theorem readStep_pops_first (hl : f.ctl.label = .r9) {cls : TagClass}
    (hcls : s.par.rxTagClass (rxTag (asWord s.answer)) = cls) :
    micros a readStep 2 f s =
      some ({ f with ctl := ⟨drainLabel cls, f.ctl.res⟩, w := asWord s.answer },
        s.answered.record (.readRxFifo (asWord s.answer))) := by
  simp [micros, readStep, hl, regAsk_of_power hpd, ReadFrame.goto, Ctl.goto, hcls]

/-- `R.10a` to `R.10c`: the error report is decoded, one dump, and the code is carried (rules R210, R284). -/
theorem readStep_reports_error (hl : f.ctl.label = .r10a) :
    micros a readStep 3 f s =
      some ({ f with ctl := ⟨.r18, .protocolError (some (asErrorCode s.answer))⟩, err := asErrorCode s.answer },
        (s.answered.record (.decodeRxError f.w (asErrorCode s.answer))).record (.dump .rxAckErr)) := by
  simp [micros, readStep, hl, regAsk_of_power hpd, dump, reg, hpd, ReadFrame.goto, ReadFrame.raise, Ctl.goto, Ctl.raise,
    Ctl.finish]

/-- `R.10o` and `R.10q`: a tag of no class, one dump (rule R215). -/
theorem readStep_rejects_tag (hl : f.ctl.label = .r10o) :
    micros a readStep 2 f s =
      some ({ f with ctl := ⟨.r18, .protocolError none⟩ }, s.record (.dump .rxBadTag)) := by
  simp only [micros, readStep, hl, dump_of_power hpd]
  rfl

/-- `R.15` to `R.16a` in the last iteration with the FIFO not empty: one dump (rule R217). -/
theorem readStep_exhausts (hl : f.ctl.label = .r15) (hiter : f.iter ≤ 1) (hans : asBool s.answer = false) :
    micros a readStep 3 f s =
      some ({ f with ctl := ⟨.r18, .protocolError none⟩, iter := 0 },
        (s.answered.record (.rxFifoEmpty false)).record (.dump .rxDrainExhausted)) := by
  have hlast : f.iter - 1 = 0 := by omega
  simp [micros, readStep, hl, regAsk_of_power hpd, hans, dump, reg, hpd, hlast, ReadFrame.goto, ReadFrame.raise, Ctl.goto,
    Ctl.raise, Ctl.finish]

end

/-- A drain whose micro-steps lead to `R.18`, the lock still held, returns its result and releases the lock (rule R218). -/
theorem exec_read_exits {s t : State} {c : Caller} {f g : ReadFrame} {rest : List Frame} {m : Nat} {r : Result}
    (hruns : s.runs c (.read f) rest) (h : micros s.cur readStep m f s = some (g, t)) (hg : g.ctl = ⟨.r18, r⟩)
    (hheld : t.lock = .held s.cur) (hm : m + 2 ≤ s.quantum) (ht : t.callers = s.callers) :
    exec (Frame.read f).instr s = .next
      { t with
        lock := .free, hist := t.hist ++ [.unblockLowPowerExit], callers := s.returnedCallers c rest r } :=
  exec_read_returns hruns ((micros_trans h 2).trans (readStep_exits s.cur (by rw [hg]) hheld)) (by rw [hg]) hm ht

/-- Settles O54: each error is raised after its dump, and the exit releases the lock. -/
theorem readProtocolErrors : Obligations.ReadProtocolErrors := by
  intro s c f rest hruns hheld hpd hq
  have hpower : s.answered.pdActive = true := by simpa using hpd
  refine ⟨fun hl hcls => ?_, fun hl hcls => ?_, fun hl hiter hans => ?_⟩
  · have hends := (micros_trans (readStep_pops_first s.cur hpd hl hcls) 3).trans
      (readStep_reports_error s.cur (by exact hpower) rfl)
    rw [exec_read_exits hruns hends rfl (by simpa using hheld) (by omega) (by simp)]
    simp [afterCommand, State.record, State.answered_eq, State.returnedCallers, State.answer]
  · have hends := (micros_trans (readStep_pops_first s.cur hpd hl hcls) 2).trans
      (readStep_rejects_tag s.cur (by exact hpower) rfl)
    rw [exec_read_exits hruns hends rfl (by simpa using hheld) (by omega) (by simp)]
    simp [afterCommand, State.record, State.answered_eq, State.returnedCallers]
  · rw [exec_read_exits hruns (readStep_exhausts s.cur hpd hl hiter hans) rfl (by simpa using hheld) (by omega) (by simp)]
    simp [afterCommand, State.record, State.answered_eq, State.returnedCallers]

end Sys2Proof.Machine
end

section
/-! PROOFS. READ drains several response packets (O53). -/

namespace Sys2Proof.Machine

/-! ## One packet of several (rules R209 to R214)

`readStep_drains_packet` with a tighter count of the micro-steps, so that those from one packet to the next are counted too. -/

/-- A packet that raises no error and is not a long response is one word (rules R211, R212). -/
theorem RxPacket.data_of_short {p : Params} {k : RxPacket} (hsound : k.sound p) (hshort : k.cls p ≠ .long) :
    k.data = [] := by
  unfold RxPacket.sound at hsound
  cases hcls : k.cls p with
  | long => exact absurd hcls hshort
  | ackErr | other => simp [hcls] at hsound
  | eot | short1 | short2 => simpa [hcls] using hsound

section
variable (a : Nat) (f : ReadFrame) {s : State} {mem : List Host.Cell} {bytes : List Byte}
  (hmem : s.mem = storeBytes mem f.out f.cap.toNat bytes)
include hmem

/-- `R.9` and `R.10` of a packet whose first word is the answer listed next. -/
theorem readStep_pops_first_listed (hpd : s.pdActive = true) {k : RxPacket} {later : List Nat}
    (hans : s.answers = k.first :: later) (w v : Word) (cnt : Half) (j b : Nat) :
    micros a readStep 2 (f.draining .r9 bytes w v cnt j b) s =
      some (f.draining (drainLabel (k.cls s.par)) bytes (asWord k.first) v cnt j b,
        s.receive f mem bytes [.readRxFifo (asWord k.first)] later) := by
  obtain ⟨hfirst, hleft⟩ := answer_of_cons hans
  rw [readStep_pops_first a hpd rfl rfl, hfirst, hleft, State.receive, ← hmem]
  rfl

/-- From `R.10` to `R.15`: the bytes of a packet of one word (rules R211 to R213). -/
theorem readStep_appends_short {k : RxPacket} (hsound : k.sound s.par) (hshort : k.cls s.par ≠ .long) (v : Word)
    (cnt : Half) (j b : Nat) :
    ∃ m ≤ 2, micros a readStep m (f.draining (drainLabel (k.cls s.par)) bytes (asWord k.first) v cnt j b) s =
      some (f.draining .r15 (bytes ++ k.bytes s.par) (asWord k.first) v cnt j b,
        s.receive f mem (bytes ++ k.bytes s.par) [] s.answers) := by
  unfold RxPacket.sound at hsound
  unfold RxPacket.bytes
  cases hcls : k.cls s.par with
  | ackErr | other => simp only [hcls] at hsound
  | long => exact absurd hcls hshort
  | eot =>
    refine ⟨1, by omega, micros_one ?_⟩
    simp only [List.append_nil, receive_nothing f hmem]
    rfl
  | short1 =>
    exact ⟨1, by omega, micros_one (appendByte_receives f hmem .r10s .r15 _ v cnt j b (rxData0 (asWord k.first)))⟩
  | short2 =>
    have hfirst := appendByte_receives f hmem .r10t .r10t2 (asWord k.first) v cnt j b (rxData0 (asWord k.first))
    have hsecond := appendByte_receives f (s := s.receive f mem (bytes ++ [rxData0 (asWord k.first)]) [] s.answers) (by rfl)
      .r10t2 .r15 (asWord k.first) v cnt j b (rxData1 (asWord k.first))
    rw [State.receive_receive, List.append_assoc] at hsecond
    exact ⟨2, le_rfl, (micros_trans (micros_one hfirst) 1).trans (micros_one (by exact hsecond))⟩

/-- `R.9` to `R.15`: a packet that raises no error is popped and its bytes are appended. -/
theorem readStep_drains_packet_within (hpd : s.pdActive = true) {k : RxPacket} (hsound : k.sound s.par) {later : List Nat}
    (hans : s.answers = k.first :: (k.data ++ later)) (w v : Word) (cnt : Half) (j b : Nat) :
    ∃ m ≤ 4 + 8 * k.data.length, ∃ v' cnt' j' b', ∀ n,
      burst a .read readStep (n + m) (f.draining .r9 bytes w v cnt j b) s =
        burst a .read readStep n (f.draining .r15 (bytes ++ k.bytes s.par) (asWord k.first) v' cnt' j' b')
          (s.receive f mem (bytes ++ k.bytes s.par) k.events later) := by
  have hpop := readStep_pops_first_listed a f hmem hpd hans w v cnt j b
  by_cases hlong : k.cls s.par = .long
  · have hlen : k.data.length = wordsFor (rxCount (asWord k.first)).toNat := by
      simpa [RxPacket.sound, hlong] using hsound
    obtain ⟨v', j', b', hwords⟩ := readStep_pops_words a f
      (s := s.receive f mem bytes [.readRxFifo (asWord k.first)] (k.data ++ later)) (by rfl) hpd (by rfl) (asWord k.first) v
      (cnt := rxCount (asWord k.first)) (j := 0) hlen b
    have hcount : micros a readStep 3 (f.draining .r9 bytes w v cnt j b) s =
        some (f.draining .r10m bytes (asWord k.first) v (rxCount (asWord k.first)) 0 b,
          s.receive f mem bytes [.readRxFifo (asWord k.first)] (k.data ++ later)) :=
      (micros_trans hpop 1).trans (by rw [hlong]; rfl)
    refine ⟨3 * k.data.length + (rxCount (asWord k.first)).toNat + 1 + 3, by unfold wordsFor at hlen; omega, v',
      rxCount (asWord k.first), j', b', fun n => ?_⟩
    have hbytes : k.bytes s.par = responseBytes k.data (rxCount (asWord k.first)).toNat := by simp [RxPacket.bytes, hlong]
    rw [burst_of_micros hcount (by omega), ← Nat.add_assoc, Nat.add_sub_cancel, hbytes]
    exact (hwords n).trans (by rw [State.receive_receive]; rfl)
  · have hdata := RxPacket.data_of_short hsound hlong
    obtain ⟨m, hm, hshort⟩ := readStep_appends_short a f
      (s := s.receive f mem bytes [.readRxFifo (asWord k.first)] (k.data ++ later)) (by rfl) hsound hlong v cnt j b
    refine ⟨2 + m, by omega, v, cnt, j, b, fun n => ?_⟩
    rw [burst_of_micros ((micros_trans hpop m).trans hshort) (by omega), Nat.add_sub_cancel, State.receive_receive]
    simp [hdata, State.receive, RxPacket.events]

/-- `R.15` with the FIFO not empty to the next `R.9`, before the last iteration (rules R216, R217). -/
theorem readStep_goes_round (hpd : s.pdActive = true) {later : List Nat} (hans : s.answers = 0 :: later)
    (hiter : 1 < f.iter) (w v : Word) (cnt : Half) (j b : Nat) :
    micros a readStep 4 (f.draining .r15 bytes w v cnt j b) s =
      some (ReadFrame.draining { f with iter := f.iter - 1 } .r9 bytes w v cnt j b,
        s.receive f mem bytes [.rxFifoEmpty false] later) := by
  have hmore : f.iter - 1 ≠ 0 := by omega
  simp [micros, readStep, ReadFrame.draining, ReadFrame.goto, Ctl.goto, regAsk_of_listed hpd hans, asBool, hmore,
    State.receive, ← hmem]

end

/-! ## Packet after packet (rules R209, R216, R217) -/

theorem rxAnswers_cons (k : RxPacket) {l : List RxPacket} (hl : l ≠ []) :
    rxAnswers (k :: l) = k.first :: (k.data ++ 0 :: rxAnswers l) := by
  obtain ⟨k', l, rfl⟩ := List.exists_cons_of_ne_nil hl
  simp [rxAnswers]

theorem rxEvents_cons (k : RxPacket) {l : List RxPacket} (hl : l ≠ []) :
    rxEvents (k :: l) = k.events ++ .rxFifoEmpty false :: rxEvents l := by
  obtain ⟨k', l, rfl⟩ := List.exists_cons_of_ne_nil hl
  simp [rxEvents]

/-- `R.9` to `R.20`: packets that raise no error, not more of them than iterations are left. -/
theorem readStep_drains_packets (a : Nat) (f : ReadFrame) {s : State} {mem : List Host.Cell} {bytes : List Byte}
    (hmem : s.mem = storeBytes mem f.out f.cap.toNat bytes) (hheld : s.lock = .held a) (hpd : s.pdActive = true)
    {l : List RxPacket} (hl : l ≠ []) (hiter : l.length ≤ f.iter) (hsound : ∀ k ∈ l, k.sound s.par) {later : List Nat}
    (hans : s.answers = rxAnswers l ++ later) (w v : Word) (cnt : Half) (j b : Nat) {q : Nat}
    (hq : (l.map fun k => 8 + 8 * k.data.length).sum ≤ q) :
    burst a .read readStep q (f.draining .r9 bytes w v cnt j b) s =
      .next (State.deliver
        { s.receive f mem (bytes ++ l.flatMap (RxPacket.bytes s.par)) (rxEvents l ++ [.unblockLowPowerExit]) later with
          lock := .free } a (countOf f.cap (bytes ++ l.flatMap (RxPacket.bytes s.par)))) := by
  induction l generalizing f s bytes w v cnt j b q with
  | nil => exact absurd rfl hl
  | cons k l ih =>
    simp only [List.map_cons, List.sum_cons] at hq
    obtain ⟨hk, hrest⟩ := List.forall_mem_cons.mp hsound
    by_cases hlast : l = []
    · subst hlast
      have hlist : s.answers = k.first :: (k.data ++ 1 :: later) := by simp [hans, rxAnswers]
      obtain ⟨m, hm, v', cnt', j', b', hdrain⟩ := readStep_drains_packet_within a f hmem hpd hk hlist w v cnt j b
      obtain ⟨n, rfl⟩ : ∃ n, q = n + 4 + m := ⟨q - (4 + m), by omega⟩
      rw [hdrain, readStep_returns_count _ _ _ (by exact hheld) (by exact hpd) (by rfl)]
      simp [State.receive, rxEvents]
    · have hlist : s.answers = k.first :: (k.data ++ 0 :: (rxAnswers l ++ later)) := by simp [hans, rxAnswers_cons k hlast]
      obtain ⟨m, hm, v', cnt', j', b', hdrain⟩ := readStep_drains_packet_within a f hmem hpd hk hlist w v cnt j b
      have hround := readStep_goes_round a f
        (s := s.receive f mem (bytes ++ k.bytes s.par) k.events (0 :: (rxAnswers l ++ later))) (by rfl) hpd (by rfl)
        (Nat.lt_of_lt_of_le (Nat.succ_lt_succ (List.length_pos_of_ne_nil hlast)) hiter) (asWord k.first)
        v' cnt' j' b'
      rw [State.receive_receive] at hround
      obtain ⟨n, rfl⟩ : ∃ n, q = n + 4 + m := ⟨q - (4 + m), by omega⟩
      rw [hdrain, burst_of_micros hround (by omega), Nat.add_sub_cancel,
        ih { f with iter := f.iter - 1 } (by rfl) (by exact hheld) (by exact hpd) hlast (Nat.le_sub_one_of_lt hiter)
          (by exact hrest) (by rfl) _ _ _ _ _ (by omega)]
      simp [State.receive, rxEvents_cons k hlast]

/-- Settles O53: the end of the wait, the packets one by one, and the exit with the count of all their bytes. -/
theorem readConcatenatesResponses : Obligations.ReadConcatenatesResponses := by
  intro s c f rest l later hruns hl hrd hnow hfree hpd hne hdepth hsound hans hq
  unfold drainSteps at hq
  have hle : (l.map fun k => 8 + 8 * k.data.length).sum ≤ (l.map fun k => 20 + 8 * k.data.length).sum :=
    List.sum_le_sum fun k _ => by omega
  obtain ⟨n, hn⟩ : ∃ n, s.quantum + 1 = n + 4 := ⟨s.quantum - 3, by omega⟩
  have hsteps : (l.map fun k => 8 + 8 * k.data.length).sum ≤ n := by omega
  rw [exec_read_of_runs hruns, hn, readStep_enters_drain _ _ _ hl hrd hnow hfree,
    readStep_drains_packets s.cur _ (mem := s.mem) (bytes := []) (by simp [storeBytes]) (by rfl) (by exact hpd) hne
      (by exact hdepth) (by exact hsound) (by exact hans) _ _ _ _ _ hsteps, deliver_of_runs hruns (by rfl)]
  simp [afterCommand, State.receive]

end Sys2Proof.Machine
end

section
/-! PROOFS. READ outside ON, and READ and WRITE under their agent's own lock (O46). -/

namespace Sys2Proof.Machine

/-! ## An `Idle` agent's READ outside ON (rules R201, R202, R204) -/

section
variable (a : Nat) (ty addr : Byte) (maxLen cap : Half) (buf : Option BufHandle) {s : State}

/-- `R.0` to `R.19` in OFF: `NotReady` (rule R201). -/
theorem readStep_not_ready (hlink : s.link = .off) (hown : s.lock ≠ .held a) :
    micros a readStep 3 (.start ty addr maxLen cap buf) s =
      some ({ ReadFrame.start ty addr maxLen cap buf with ctl := ⟨.r20, .notReady⟩ },
        { s with hist := s.hist ++ [.blockLowPowerExit, .unblockLowPowerExit] }) := by
  simp [micros, readStep, ReadFrame.start, ReadFrame.goto, ReadFrame.raise, Ctl.goto, Ctl.raise, Ctl.finish, unlessStuck,
    hlink, hown, State.record]

/-- `R.0` to `R.2` outside OFF: the read-ready signal is reset (rule R202). -/
theorem readStep_passes_gate (hlink : s.link ≠ .off) :
    micros a readStep 3 (.start ty addr maxLen cap buf) s =
      some ({ ReadFrame.start ty addr maxLen cap buf with ctl := ⟨.r3, .ok⟩ },
        { s with sigRd := ⟨false⟩, hist := s.hist ++ [.blockLowPowerExit] }) := by
  simp [micros, readStep, ReadFrame.start, ReadFrame.goto, Ctl.goto, unlessStuck, hlink, State.resetRd, State.setSigRd,
    State.record]

/-- `R.0` to `R.3` outside OFF with power on: READ comes to its first call (rules R202, R203). -/
theorem readStep_reaches_first_call (hlink : s.link ≠ .off) (hpd : s.pdActive = true) :
    micros a readStep 4 (.start ty addr maxLen cap buf) s =
      some ({ ReadFrame.start ty addr maxLen cap buf with ctl := ⟨.r4, .ok⟩ },
        { s with sigRd := ⟨false⟩, hist := s.hist ++ [.blockLowPowerExit, .clearInterrupt irqRxDataDone] }) := by
  rw [micros_trans (readStep_passes_gate a ty addr maxLen cap buf hlink) 1]
  simp [micros, readStep, ReadFrame.start, ReadFrame.goto, Ctl.goto, unlessStuck, reg, hpd, State.record]

/-- `R.4` to `R.19` outside ON: the nested WRITE fails, and its `NotReady` is the READ's (rule R204). -/
theorem readStep_first_call_not_ready {f : ReadFrame} (hl : f.ctl.label = .r4) (hsub : f.sub = none)
    (hfree : s.lock = .free) (hlink : s.link ≠ .on) :
    ∃ g, g.ctl = ⟨.r20, .notReady⟩ ∧
      micros a readStep 8 f s =
        some (g, { s with hist := s.hist ++ [.blockLowPowerExit, .unblockLowPowerExit, .unblockLowPowerExit] }) := by
  obtain ⟨w, hw, hnested⟩ := writeStep_not_ready a (setMaxReturnWrite s.par f.len) rfl hfree hlink
  obtain ⟨g, hg, hends⟩ := readStep_request_fails a (f := f) (.inl hl) (by decide) hw
    { s with hist := s.hist ++ [.blockLowPowerExit, .unblockLowPowerExit] }
  have hcall := micros_trans (micros_one (readStep_calls_first a f hl hsub s)) 5
  refine ⟨g, hg, ((micros_trans (hcall.trans (readStep_nested_micros a f (.inl hl) hnested)) 2).trans hends).trans ?_⟩
  simp [State.record]

end

section
variable {s : State} {c : Caller} (hidle : s.idleAs c) {ty addr : Byte} {maxLen cap : Half} {buf : Option BufHandle}
  (hwf : (Instr.read ty addr maxLen cap buf).wellFormed s.par = true)
include hwf

/-- A READ whose operands have a meaning is not refused (rule R219). -/
theorem exec_read_of_wellFormed :
    exec (.read ty addr maxLen cap buf) s =
      conduct none (some (.start ty addr maxLen cap buf)) (Frame.asRead ty addr maxLen cap buf) Frame.read readStep s := by
  have hfits : readRefusal cap buf = none := if_pos (by simpa [Instr.wellFormed] using hwf)
  rw [← hfits]
  rfl

include hidle

/-- A READ of an `Idle` agent whose micro-steps lead to `R.20` returns its result (rule R218). -/
theorem exec_read_ends {m : Nat} {g : ReadFrame} {t : State} {r : Result}
    (h : micros s.cur readStep m (.start ty addr maxLen cap buf)
      { s with callers := s.acceptedCallers c (.read (.start ty addr maxLen cap buf)) } = some (g, t))
    (hm : m < s.quantum) (ht : t.callers = s.acceptedCallers c (.read (.start ty addr maxLen cap buf)))
    (hg : g.ctl = ⟨.r20, r⟩) :
    exec (.read ty addr maxLen cap buf) s = .next { t with callers := s.answeredCallers c r } := by
  obtain ⟨n, hn⟩ : ∃ n, s.quantum = n + 1 := ⟨s.quantum - 1, by omega⟩
  rw [exec_read_of_wellFormed hwf, conduct_of_idle hidle _ _ _ _ hn, ← hn, burst_read_returns h hg hm,
    deliver_of_accepted hidle ht]

/-- READ in OFF. -/
theorem exec_read_in_off (hq : 30 ≤ s.quantum) (hlink : s.link = .off) (hown : s.lock ≠ .held s.cur) :
    exec (.read ty addr maxLen cap buf) s = .next
      { s with
        hist := s.hist ++ [.blockLowPowerExit, .unblockLowPowerExit]
        callers := s.answeredCallers c .notReady } :=
  exec_read_ends hidle hwf (readStep_not_ready s.cur ty addr maxLen cap buf hlink hown) (by omega) rfl rfl

/-- READ in DOZE. -/
theorem exec_read_in_doze (hq : 30 ≤ s.quantum) (hlink : s.link = .doze) (hpd : s.pdActive = true) (hfree : s.lock = .free) :
    exec (.read ty addr maxLen cap buf) s = .next
      { s with
        sigRd := ⟨false⟩
        hist := s.hist ++ [.blockLowPowerExit, .clearInterrupt irqRxDataDone, .blockLowPowerExit, .unblockLowPowerExit,
          .unblockLowPowerExit]
        callers := s.answeredCallers c .notReady } := by
  have hgate : s.link ≠ .off ∧ s.link ≠ .on := by simp [hlink]
  have hcall := readStep_reaches_first_call s.cur ty addr maxLen cap buf
    (s := { s with callers := s.acceptedCallers c (.read (.start ty addr maxLen cap buf)) }) hgate.1 hpd
  obtain ⟨g, hg, hends⟩ := readStep_first_call_not_ready s.cur (s := s.firstCall c (.start ty addr maxLen cap buf))
    (f := { ReadFrame.start ty addr maxLen cap buf with ctl := ⟨.r4, .ok⟩ }) rfl rfl hfree hgate.2
  rw [exec_read_ends hidle hwf ((micros_trans hcall 8).trans hends) (by omega) rfl hg]
  simp [State.firstCall]

end

/-! ## READ and WRITE under their agent's own lock (rules R297, R301, R336) -/

/-- The agent `c` that has accepted a request, its operation standing at the frame `fr` since. -/
def Caller.standing (c : Caller) (fr : Frame) : Caller := { c with port := none, stack := fr :: c.stack }

/-- `s` with the operation of its agent `c`, accepted there, standing at the frame `fr`. -/
def State.withStanding (s : State) (c : Caller) (fr : Frame) : State :=
  { s with callers := s.callers.set s.cur (c.standing fr) }

section
variable {s : State} {c : Caller} (hc : s.callers[s.cur]? = some c)
include hc

theorem accept_eq_withStanding (fr : Frame) : s.accept s.cur fr = s.withStanding c fr := by
  simp [State.accept, State.modifyCaller, State.setCallers, hc, State.withStanding, Caller.standing]

/-- Outside a callback the agent goes on with that operation in every later turn. -/
theorem runs_of_standing {t : State} {fr : Frame} (ht : t.callers = s.callers.set s.cur (c.standing fr))
    (hcb : fr.inCallback = false) (more : Nat) : (t.focus s.cur more).runs (c.standing fr) fr c.stack := by
  obtain ⟨hlt, -⟩ := List.getElem?_eq_some_iff.mp hc
  refine ⟨?_, rfl, by simp [Caller.standing, Caller.accepts, hcb]⟩
  simp [ht, hlt]

/-- An operation that is accepted and comes to a micro-step that is not enabled stands there. -/
theorem conduct_of_stuck {F : Type} {f g : F} {view : Frame → Option F} {wrap : F → Frame}
    {micro : Nat → F → State → Micro F} {m : Nat} {u : State} (hacc : c.accepts = true)
    (h : micros s.cur micro m f (s.withStanding c (wrap f)) = some (g, u))
    (hu : u.callers = (s.withStanding c (wrap f)).callers) (hblocked : micro s.cur g u = .blocked) (hm : m < s.quantum) :
    conduct none (some f) view wrap micro s =
      .next { u with callers := s.callers.set s.cur (c.standing (wrap g)) } := by
  obtain ⟨n, hn⟩ : ∃ n, s.quantum = n + 1 := ⟨s.quantum - 1, by omega⟩
  obtain ⟨hlt, -⟩ := List.getElem?_eq_some_iff.mp hc
  simp only [conduct, hc, hacc, if_true, hn, admitThen_some, accept_eq_withStanding hc]
  rw [burst_of_micros h (by omega), burst_of_blocked hblocked]
  simp [State.saveTop, State.modifyCaller, State.setCallers, hu, State.withStanding, Caller.standing, hlt]

end

section
variable (a : Nat) {s : State}

/-- `W.1` under the own lock. -/
theorem writeStep_stuck {g : WriteFrame} (hl : g.ctl.label = .w1) (hheld : s.lock = .held a) :
    writeStep a g s = .blocked := by
  simp only [writeStep, hl]
  exact lockThen_of_held a hheld _

/-- A READ comes to `R.1` in OFF, to `R.3` without power, and else to the `W.1` of its first call, and is stuck there under the
own lock as long as link state and power do not change. -/
theorem readStep_stuck (ty addr : Byte) (maxLen cap : Half) (buf : Option BufHandle) (hheld : s.lock = .held a) :
    ∃ m ≤ 6, ∃ g u, micros a readStep m (.start ty addr maxLen cap buf) s = some (g, u) ∧
      (Frame.read g).instr = .read ty addr maxLen cap buf ∧ u.callers = s.callers ∧ u.lock = .held a ∧
      ∀ v, v.lock = .held a → u.SameLinkAndFlags v → readStep a g v = .blocked := by
  by_cases hlink : s.link = .off
  · refine ⟨1, by omega, { ReadFrame.start ty addr maxLen cap buf with ctl := ⟨.r1, .ok⟩ }, s.record .blockLowPowerExit,
      rfl, rfl, rfl, hheld, fun v hv hsame => ?_⟩
    obtain ⟨hvlink, -⟩ := hsame
    have hoff : v.link = .off := hvlink.trans hlink
    simp only [readStep, hoff, decide_true, unlessStuck_of_own hv]
  by_cases hpd : s.pdActive = true
  · have hcall := readStep_reaches_first_call a ty addr maxLen cap buf hlink hpd
    refine ⟨6, le_rfl, ReadFrame.nest { ReadFrame.start ty addr maxLen cap buf with ctl := ⟨.r4, .ok⟩ }
      ((setMaxReturnWrite s.par maxLen).goto .w1), _, (micros_trans hcall 2).trans rfl, rfl, rfl, hheld, fun v hv _ => ?_⟩
    exact readStep_nested_blocked a _ (.inl rfl) (writeStep_stuck a rfl hv)
  · refine ⟨3, by omega, _, _, readStep_passes_gate a ty addr maxLen cap buf hlink, rfl, rfl, hheld, fun v hv hsame => ?_⟩
    obtain ⟨-, hvpd, -⟩ := hsame
    have hoff : v.pdActive = false := hvpd.trans (by simpa using hpd)
    simp only [readStep, hoff, Bool.not_false, unlessStuck_of_own hv]

end

section
variable {s : State} {c : Caller} (hc : s.callers[s.cur]? = some c) (hacc : c.accepts = true)
  (hheld : s.lock = .held s.cur) (hq : 30 ≤ s.quantum)
include hc hacc hheld hq

/-- A WRITE requested under its agent's own lock. -/
theorem exec_write_stuck {ty d0 d1 : Byte} {len : Half} {buf : Option BufHandle}
    (hwf : (Instr.write ty d0 d1 len buf).wellFormed s.par = true) :
    ∃ t f, exec (.write ty d0 d1 len buf) s = .next t ∧ t.lock = .held s.cur ∧ f.instr = .write ty d0 d1 len buf ∧
      t.callers = s.callers.set s.cur (c.standing f) ∧
      ∀ more, exec (.write ty d0 d1 len buf) (t.focus s.cur more) = .next (t.focus s.cur more) := by
  have hfits : writeRefusal s.par ty len buf = none := by
    simpa [hwf] using writeRefusal_isSome_iff s.par ty d0 d1 len buf
  have hexec : exec (.write ty d0 d1 len buf) s = conduct none (some (.start ty d0 d1 len buf))
      (Frame.asWrite ty d0 d1 len buf) Frame.write writeStep s := by
    rw [← hfits]
    rfl
  have hgate : micros s.cur writeStep 1 (.start ty d0 d1 len buf) (s.withStanding c (.write (.start ty d0 d1 len buf))) =
      some ((WriteFrame.start ty d0 d1 len buf).goto .w1, State.record _ .blockLowPowerExit) := rfl
  refine ⟨_, .write ((WriteFrame.start ty d0 d1 len buf).goto .w1),
    hexec.trans (conduct_of_stuck hc hacc hgate rfl (writeStep_stuck s.cur rfl hheld) (by omega)), hheld, rfl, rfl,
    fun more => ?_⟩
  exact exec_write_of_blocked (f := (WriteFrame.start ty d0 d1 len buf).goto .w1) (runs_of_standing hc rfl rfl more)
    (writeStep_stuck s.cur rfl hheld)

/-- A READ requested under its agent's own lock. -/
theorem exec_read_stuck {ty addr : Byte} {maxLen cap : Half} {buf : Option BufHandle}
    (hwf : (Instr.read ty addr maxLen cap buf).wellFormed s.par = true) :
    ∃ t f, exec (.read ty addr maxLen cap buf) s = .next t ∧ t.lock = .held s.cur ∧
      f.instr = .read ty addr maxLen cap buf ∧ t.callers = s.callers.set s.cur (c.standing f) ∧
      ∀ more, exec (.read ty addr maxLen cap buf) (t.focus s.cur more) = .next (t.focus s.cur more) := by
  obtain ⟨m, hm, g, u, hsteps, hinstr, hu, hlock, hstuck⟩ := readStep_stuck s.cur
    (s := s.withStanding c (.read (.start ty addr maxLen cap buf))) ty addr maxLen cap buf hheld
  refine ⟨_, .read g, (exec_read_of_wellFormed hwf).trans
    (conduct_of_stuck hc hacc hsteps hu (hstuck u hlock ⟨rfl, rfl, rfl, rfl⟩) (by omega)), hlock, hinstr, rfl,
    fun more => ?_⟩
  rw [← hinstr]
  exact exec_read_of_blocked (runs_of_standing hc rfl rfl more) (hstuck _ hlock ⟨rfl, rfl, rfl, rfl⟩)

end

/-- Settles O46: the two gates, and the place at which a READ or WRITE is stuck. -/
theorem readStateGate : Obligations.ReadStateGate := by
  refine ⟨fun ty addr maxLen cap buf s c hidle hwf hq => ⟨exec_read_in_off hidle hwf hq, exec_read_in_doze hidle hwf hq⟩,
    fun i s c hop hc hacc hwf hheld hq => ?_⟩
  cases i with
  | write => exact exec_write_stuck hc hacc hheld hq hwf
  | read => exact exec_read_stuck hc hacc hheld hq hwf
  | _ => simp [Instr.opcode] at hop

end Sys2Proof.Machine
end

section
/-! PROOFS. The tie of a timed wait, in each of the three waits (O45), and the watchdog: when it expires (O58), and all that it
writes (O59). -/

namespace Sys2Proof.Machine

/-! ## The tie of a timed wait (rule R237) -/

/-- An operation in flight whose turn is one micro-step that goes on. -/
theorem burst_one_of_runs {F : Type} {wrap : F → Frame} {micro : Nat → F → State → Micro F} {s t : State} {c : Caller}
    {f g : F} {rest : List Frame} (hruns : s.runs c (wrap f) rest) (hq : s.quantum = 0) (h : micro s.cur f s = .cont g t)
    (ht : t.callers = s.callers) :
    burst s.cur wrap micro (s.quantum + 1) f s =
      .next { t with callers := s.callers.set s.cur { c with stack := wrap g :: rest } } := by
  rw [burst_of_micros (micros_one h) (by omega), hq, burst_zero, saveTop_of_runs hruns ht]

section
variable (a : Nat) {s : State}

/-- The tie at `W.9`: the outcome is the environment's, and only `Signaled` consumes the firing. -/
theorem writeStep_ties {f : WriteFrame} (hl : f.ctl.label = .w9) (hph : s.sigPh.done = true)
    (hnow : f.t0 + s.par.wrTimeout.val ≤ s.now) :
    writeStep a f s = .cont (afterTie s f) { s.answered with sigPh := ⟨asBool s.answer⟩ } := by
  simp only [writeStep, hl, hph, waitThen_of_tie hnow, afterTie]
  cases asBool s.answer with
  | true =>
    have hkept : { s.answered with sigPh := ⟨true⟩ } = s.answered := by rw [← hph, State.answered_eq]
    exact congrArg (Micro.cont _) hkept.symm
  | false => rfl

/-- The tie at `R.6`. -/
theorem readStep_ties {f : ReadFrame} (hl : f.ctl.label = .r6) (hrd : s.sigRd.done = true)
    (hnow : f.t0 + s.par.rdTimeout.val ≤ s.now) :
    readStep a f s = .cont { f with ctl := f.ctl.goto .r6a, wres := if asBool s.answer then .timedOut else .signaled }
      { s.answered with sigRd := ⟨asBool s.answer⟩ } := by
  simp only [readStep, hl, hrd, waitThen_of_tie hnow]
  cases asBool s.answer with
  | true =>
    have hkept : { s.answered with sigRd := ⟨true⟩ } = s.answered := by rw [← hrd, State.answered_eq]
    exact congrArg (Micro.cont _) hkept.symm
  | false => rfl

/-- `R.4` and `R.5` while the nested WRITE goes on; `R.5` writes the time anew (rules R23, R236). -/
theorem readStep_of_nested {f : ReadFrame} {g g' : WriteFrame} {s' : State} (hl : f.ctl.label = .r4 ∨ f.ctl.label = .r5)
    (hsub : f.sub = some g) (h : writeStep a g s = .cont g' s') :
    readStep a f s =
      .cont { f with t0 := if f.ctl.label = .r5 then s.now else f.t0, sub := some g' } s' := by
  rcases hl with hl | hl
  · simp only [readStep, hl, nestedWrite, hsub, h]
    rfl
  · simp only [readStep, hl, nestedWrite, hsub, h, writeStep_now a h, if_true]

end

/-- Settles O45: in each of the three waits the one micro-step is the tie. -/
theorem waitTieTakesEitherOutcome : Obligations.WaitTieTakesEitherOutcome := by
  intro s c rest hq
  refine ⟨fun f hruns hl hph hnow => ?_, fun f g hruns hl hsub hg hph hnow => ?_, fun f hruns hl hrd hnow => ?_⟩
  · rw [exec_write_of_runs hruns]
    exact burst_one_of_runs hruns hq (writeStep_ties s.cur hl hph hnow) (by simp)
  · rw [exec_read_of_runs hruns]
    exact burst_one_of_runs hruns hq (readStep_of_nested s.cur hl hsub (writeStep_ties s.cur hg hph hnow)) (by simp)
  · rw [exec_read_of_runs hruns]
    exact burst_one_of_runs hruns hq (readStep_ties s.cur hl hrd hnow) (by simp)

/-! ## The watchdog (rules R243 to R245) -/

theorem wdDue_eq_false_iff (s : State) : s.wdDue = false ↔ s.wd.armed = false ∨ s.now < s.wd.deadline := by
  simp only [State.wdDue, Bool.and_eq_false_iff, decide_eq_false_iff_not, Nat.not_le]

theorem wdDue_eq_true_iff (s : State) : s.wdDue = true ↔ s.wd.armed = true ∧ s.wd.deadline ≤ s.now := by
  simp [State.wdDue]

/-- A watchdog that is disarmed, or not yet due, does nothing (rule R243). -/
theorem wdtTurn_of_not_due {s : State} (hdue : s.wdDue = false) : wdtTurn s = .next s := by
  simp [wdtTurn, wdtStep, hdue]

/-- A watchdog that is due expires: it disarms and rechecks, and dumps if the FIFO is not empty (rule R244). -/
theorem wdtTurn_of_due {s : State} (hdue : s.wdDue = true) (hpd : s.pdActive = true) :
    wdtTurn s = .next
      { s.answered with
        wd := s.disarmedWd, wdt := ⟨asBool s.answer⟩
        hist := s.hist ++ .headerFifoEmpty (asBool s.answer) ::
          (if asBool s.answer then [] else [.dump .watchdogStuck]) } := by
  have hans : s.disarmWd.answer = s.answer := rfl
  simp only [wdtTurn, wdtStep, hdue, if_true, regAsk_of_power (s := s.disarmWd) hpd, hans]
  cases asBool s.answer <;>
    simp [dump, reg, hpd, State.answered_eq, State.disarmWd, State.disarmedWd, State.record, State.setWd, State.setWdt]

/-- Settles O58: the watchdog's step is enabled exactly when it is due. -/
theorem watchdogExpiry : Obligations.WatchdogExpiry := fun s =>
  ⟨fun hearly => wdtTurn_of_not_due ((wdDue_eq_false_iff s).mpr hearly),
    fun harmed hnow => wdtTurn_of_due ((wdDue_eq_true_iff s).mpr ⟨harmed, hnow⟩)⟩

/-- `t` differs from `s` at most in what the watchdog writes (rule R245), and in the model's own record of the answers. -/
def State.SameOutsideWatchdog (s t : State) : Prop :=
  t = { s with
    wd := ⟨t.wd.armed, s.wd.deadline⟩, wdt := t.wdt, hist := t.hist, answers := t.answers, answerDraws := t.answerDraws }

theorem State.SameOutsideWatchdog.record {s t : State} (h : s.SameOutsideWatchdog t) (e : Event) :
    s.SameOutsideWatchdog (t.record e) := by
  rw [h]
  rfl

theorem State.SameOutsideWatchdog.setWdt {s t : State} (h : s.SameOutsideWatchdog t) (e : WdtAgent) :
    s.SameOutsideWatchdog (t.setWdt e) := by
  rw [h]
  rfl

/-- The watchdog disarms, takes an answer, records one event or two, and latches the answer. -/
theorem wdtTurn_sameOutsideWatchdog {s t : State} (ht : wdtTurn s = .next t) : s.SameOutsideWatchdog t := by
  have hsame : s.SameOutsideWatchdog s := by rfl
  have hasked : s.SameOutsideWatchdog s.disarmWd.answered := by
    rw [State.answered_eq]
    rfl
  have hstep : (wdtStep s).Leaves s.SameOutsideWatchdog := by
    simp only [wdtStep, Micro.leaves_ite, leaves_regAsk, leaves_dump, Micro.leaves_cont, Micro.leaves_blocked]
    exact ⟨fun _ _ => ⟨fun _ => hasked.record _, fun _ _ => (hasked.record _).record _⟩, fun _ => trivial⟩
  exact wdtTurn_keeps hsame hstep (fun _ e hu => hu.setWdt e) ht

/-- Settles O59: a turn of the watchdog is its step and the write of its latch. -/
theorem watchdogWritesOnly : Obligations.WatchdogWritesOnly := fun _ _ => wdtTurn_sameOutsideWatchdog

end Sys2Proof.Machine
end

section
/-! PROOFS. A whole run of the interrupt handler (O56) and what the handler leaves unchanged (O60). -/

namespace Sys2Proof.Machine

/-! ## Turns one after the other -/

/-- The first `m` turns lead to `t`, and the others start there. -/
theorem repeatTurn_add {turn : State → Host.Outcome State Fault Refusal} {m : Nat} {s t : State}
    (h : repeatTurn turn m s = .next t) (n : Nat) : repeatTurn turn (m + n) s = repeatTurn turn n t := by
  induction m generalizing s with
  | zero =>
    cases h
    rw [Nat.zero_add]
  | succ m ih =>
    rw [Nat.add_right_comm]
    cases hturn : turn s with
    | next u =>
      simp only [repeatTurn, hturn] at h ⊢
      exact ih h
    | fault r | refused r => simp [repeatTurn, hturn] at h

/-! ## The remaining labels of the handler run -/

/-- `H.2` latches the pending mask that the environment answers (rule R263). -/
theorem irqTurn_latches {s : State} (h2 : s.irq.label = .h2) (hpd : s.pdActive = true) :
    irqTurn s = .next
      { s.answered with
        hist := s.hist ++ [.readInterruptPending (asWord s.answer)], irq := ⟨.h3, asWord s.answer⟩ } := by
  simp only [irqTurn, irqStep, h2, regAsk_of_power hpd, State.answered_eq]
  rfl

/-- `H.7` counts an under-run, modulo the width of the counter (rule R268). -/
theorem irqTurn_counts_underrun {s : State} (h7 : s.irq.label = .h7) :
    irqTurn s = .next
      { s with underrun := if pendingBit s.irq.p 4 then s.underrun + 1 else s.underrun, irq := ⟨.h7a, s.irq.p⟩ } := by
  simp only [irqTurn, irqStep, h7]
  split <;> rfl

/-- `H.7a` passes the timestamp that the environment answers to the vsync wake (rule R269). -/
theorem irqTurn_wakes {s : State} (h7a : s.irq.label = .h7a) :
    irqTurn s = .next
      { (if pendingBit s.irq.p 5 then s.answered else s) with
        hist := s.hist ++ if pendingBit s.irq.p 5 then [.vsyncWake s.answer] else []
        irq := ⟨.h8, s.irq.p⟩ } := by
  cases hp : pendingBit s.irq.p 5 with
  | true =>
    simp only [irqTurn, irqStep, h7a, hp, if_true, State.answered_eq]
    rfl
  | false =>
    simp only [irqTurn, irqStep, h7a, hp, Bool.false_eq_true, if_false, List.append_nil]
    rfl

/-! ## The run in three parts -/

/-- The state in which a run acts on the pending mask it has latched. -/
def State.irqLatched (s : State) : State :=
  { s.answered with
    irqBusy := true
    hist := s.hist ++ [.readInterruptPending (asWord s.answer)]
    irq := ⟨.h3, asWord s.answer⟩ }

/-- What the actions of a run that latched `p` leave (rules R264 to R269). -/
def State.irqActed (s : State) (p : Word) : State :=
  { (if pendingBit p 5 then s.answered else s) with
    wd := if pendingBit p 0 then s.disarmedWd else s.wd
    sigPh := if pendingBit p 0 then ⟨true⟩ else s.sigPh
    sigRd := if pendingBit p 1 then ⟨true⟩ else s.sigRd
    underrun := if pendingBit p 4 then s.underrun + 1 else s.underrun
    hist := s.hist ++ (if pendingBit p 3 then [.dump .rxEccError] else []) ++
      (if pendingBit p 5 then [.vsyncWake s.answer] else [])
    irq := ⟨.h8, p⟩ }

/-- `H.0` to `H.2`: the spinlock is taken and the pending mask is latched. -/
theorem handlerRun_latches {s : State} (hidle : s.irq.label = .idle) (hen : s.irqEnabled = true)
    (hbusy : s.irqBusy = false) (hpd : s.pdActive = true) : repeatTurn irqTurn 3 s = .next s.irqLatched := by
  simp only [repeatTurn, irqTurn_starts hidle hen hbusy, irqTurn_checks_power, hpd, if_true, irqTurn_latches,
    State.irqLatched, State.answered_eq]
  rfl

/-- `H.3` to `H.7a`: one action after the other, each by its bit of the latched mask. -/
theorem handlerRun_acts {s : State} (h3 : s.irq.label = .h3) (hpd : s.pdActive = true) :
    repeatTurn irqTurn 6 s = .next (s.irqActed s.irq.p) := by
  simp only [repeatTurn, irqTurn_disarms h3, irqTurn_fires_ph, irqTurn_fires_rd, irqTurn_dumps, hpd,
    irqTurn_counts_underrun, irqTurn_wakes, State.irqActed]
  cases pendingBit s.irq.p 5 with
  | true =>
    simp only [State.answered_eq, hpd]
    rfl
  | false =>
    simp only [Bool.false_eq_true, if_false, hpd]

/-- `H.8` and `H.9`: the latched mask is cleared and the spinlock given back. -/
theorem handlerRun_leaves {s : State} (h8 : s.irq.label = .h8) (hpd : s.pdActive = true) :
    repeatTurn irqTurn 2 s = .next
      { s with irqBusy := false, hist := s.hist ++ [.clearInterrupt s.irq.p], irq := ⟨.idle, s.irq.p⟩ } := by
  simp only [repeatTurn, irqTurn_clears h8 hpd, irqTurn_ends]

@[simp] theorem State.irqActed_pdActive (s : State) (p : Word) : (s.irqActed p).pdActive = s.pdActive := by
  simp only [State.irqActed, apply_ite State.pdActive, State.answered_pdActive, ite_self]

/-- The three parts together leave what `afterHandler` says, since no run was in progress before. -/
theorem handlerRun_parts_eq_afterHandler {s : State} (hbusy : s.irqBusy = false) :
    let t := s.irqLatched.irqActed (asWord s.answer)
    { t with irqBusy := false, hist := t.hist ++ [.clearInterrupt t.irq.p], irq := ⟨.idle, t.irq.p⟩ } =
      afterHandler s (asWord s.answer) := by
  simp only [State.irqLatched, State.irqActed, afterHandler, handlerEvents, List.append_assoc]
  cases pendingBit (asWord s.answer) 5 <;> simp only [State.answered_eq, hbusy] <;> rfl

/-- Settles O56: the run latches the pending mask, acts on it bit by bit, and leaves. -/
theorem handlerRun : Obligations.HandlerRun := by
  intro s hidle hen hbusy hpd
  have hlatched : s.irqLatched.pdActive = true := by simpa [State.irqLatched] using hpd
  have hacted : (s.irqLatched.irqActed (asWord s.answer)).pdActive = true := by simpa using hlatched
  calc repeatTurn irqTurn 11 s
      = repeatTurn irqTurn 8 s.irqLatched := repeatTurn_add (handlerRun_latches hidle hen hbusy hpd) 8
    _ = repeatTurn irqTurn 2 (s.irqLatched.irqActed (asWord s.answer)) :=
        repeatTurn_add (handlerRun_acts rfl hlatched) 2
    _ = .next (afterHandler s (asWord s.answer)) := by
        rw [handlerRun_leaves rfl hacted, handlerRun_parts_eq_afterHandler hbusy]

/-! ## The handler's frame (rules R273, R274, R302) -/

/-- The handler leaves the watchdog's latch, the caller buffers and the watchdog's deadline alone: disarming keeps the
deadline (rule R242). -/
theorem irqTurn_keeps_wdt_mem_deadline {s t : State} (ht : irqTurn s = .next t) :
    t.wdt = s.wdt ∧ t.mem = s.mem ∧ t.wd.deadline = s.wd.deadline := by
  refine irqTurn_keeps (P := fun u => u.wdt = s.wdt ∧ u.mem = s.mem ∧ u.wd.deadline = s.wd.deadline)
    ⟨rfl, rfl, rfl⟩ ?_ (fun _ _ h => h) ht
  cases hl : s.irq.label with
  | h3 => cases hbit : pendingBit s.irq.p 0 <;> simp [irqStep, hl, hbit]
  | _ => simp [irqStep, hl, apply_ite]

/-- Settles O60: assembled from what a turn of the interrupt agent is known to keep: the lock, the flags and the caller agents;
the setup; the time; and the watchdog's latch, the memory and the deadline. -/
theorem handlerFrame : Obligations.HandlerFrame := by
  intro s t ht
  obtain ⟨hcallers, hlock, ⟨hlink, hpd, hphy, hen⟩, harmed⟩ := irqTurn_sameOutsideHandler ht
  obtain ⟨hcfg, -⟩ := irqTurn_sameSetup ht
  obtain ⟨hnow, -⟩ := irqTurn_counts ht
  obtain ⟨hwdt, hmem, hdeadline⟩ := irqTurn_keeps_wdt_mem_deadline ht
  exact ⟨hlink, hlock, hen, hpd, hphy, hnow, hcallers, hwdt, hmem, hcfg, hdeadline, harmed⟩

end Sys2Proof.Machine
end

section
/-! PROOFS. Where the one fault can arise (O14), and the two ways to it (O47). -/

namespace Sys2Proof.Machine

/-! ## A micro-step that faults (rule R296)

For each shared operation, when it faults: there is one fault, and without power it is the answer. -/

section
variable {F : Type}

@[simp] theorem reg_eq_fault (s : State) (e : Event) (k : State → Micro F) (r : Fault) :
    reg s e k = .fault r ↔ (s.pdActive = true → k (s.record e) = .fault r) := by
  cases r
  cases h : s.pdActive <;> simp [reg, h]

@[simp] theorem regAsk_eq_fault {α : Type} (s : State) (read : Nat → α) (e : α → Event) (k : α → State → Micro F)
    (r : Fault) :
    regAsk s read e k = .fault r ↔
      (s.pdActive = true → k (read s.answer) (s.answered.record (e (read s.answer))) = .fault r) := by
  cases r
  cases h : s.pdActive <;> simp [regAsk, h]

@[simp] theorem dump_eq_fault (s : State) (c : DumpCause) (k : State → Micro F) (r : Fault) :
    dump s c k = .fault r ↔ (s.pdActive = true → k (s.record (.dump c)) = .fault r) := reg_eq_fault s _ k r

@[simp] theorem lockThen_eq_fault (a : Nat) (s : State) (k : State → Micro F) (r : Fault) :
    lockThen a s k = .fault r ↔ s.lock = .free ∧ k (s.setLock (.held a)) = .fault r := by
  by_cases h : s.lock = .free <;> simp [lockThen, h]

@[simp] theorem irqLineDisableThen_eq_fault (s : State) (k : State → Micro F) (r : Fault) :
    irqLineDisableThen s k = .fault r ↔ s.irqBusy = false ∧ k (s.act .irqLineDisable) = .fault r := by
  cases h : s.irqBusy <;> simp [irqLineDisableThen, h]

theorem waitThen_ne_fault {s : State} {done : Bool} {t0 limit : Nat} {onSignal onTimeout : State → Micro F} {r : Fault}
    (hsig : ∀ u, onSignal u ≠ .fault r) (htime : ∀ u, onTimeout u ≠ .fault r) :
    waitThen s done t0 limit onSignal onTimeout ≠ .fault r := by
  unfold waitThen
  split <;> simp [hsig, htime, ite_eq_iff]

@[simp] theorem Micro.map_eq_fault {G : Type} (wrap : F → G) (m : Micro F) (r : Fault) :
    m.map wrap = .fault r ↔ m = .fault r := by cases m <;> simp [Micro.map]

end

/-! ## The lock's account of one agent (rules R29, R72) -/

/-- The lock is sound with `stack` as the operations in flight of agent `a`. -/
def State.lockSoundWith (s : State) (a : Nat) (stack : List Frame) : Prop :=
  ∃ L, s.lockSound L ∧ L a = stack.filter Frame.locked

section
variable {a : Nat} {s t : State} {fr fr' : Frame} {rest : List Frame}

theorem State.Inv.lockSoundWith {c : Caller} (h : s.Inv) (hc : s.callers[a]? = some c) :
    s.lockSoundWith a c.stack := by
  obtain ⟨-, hacc, hduring, -⟩ := h
  exact ⟨_, hacc.lockSound hduring, lockedFrames_of_caller hc⟩

theorem State.Inv.handlerAccounted (h : s.Inv) : s.handlerAccounted := by
  obtain ⟨-, -, -, hhandler⟩ := h
  exact hhandler

/-- The invariant is kept where the agents and the lock are left alone, and the shared state but for a disarm. -/
theorem State.Inv.calmer (h : s.Inv) (hcallers : t.callers = s.callers) (hlock : t.lock = s.lock) (hst : s.Calmer t)
    (hhandler : t.handlerAccounted) : t.Inv := by
  obtain ⟨htargets, hacc, hduring, -⟩ := h
  have hsound : t.lockSound (lockedFrames t.callers) := hcallers ▸ (hacc.lockSound hduring).calmer hlock hst
  exact ⟨by rwa [State.targetsSet, hcallers], hsound.lockAccounted, hsound.duringLockHolds, hhandler⟩

/-- A request is accepted outside its locked section. -/
theorem State.lockSoundWith.accept (h : s.lockSoundWith a rest) (hout : fr.locked = false) (b : Nat) :
    (s.accept b fr).lockSoundWith a (fr :: rest) := by
  obtain ⟨L, hlock, hL⟩ := h
  exact ⟨L, hlock.calmer (by simp [State.accept]) (by simp [State.accept, State.Calmer, State.SameLinkAndFlags]),
    by simp [hL, hout]⟩

theorem State.lockSoundWith.advances (h : s.lockSoundWith a (fr :: rest)) (hadv : fr.Advances a s fr' t) :
    t.lockSoundWith a (fr' :: rest) := by
  obtain ⟨L, hlock, hL⟩ := h
  exact ⟨_, hlock.advances hL hadv, Function.update_self ..⟩

/-- Inside its locked section an operation finds the shared state as it is to be. -/
theorem State.lockSoundWith.duringLock (h : s.lockSoundWith a (fr :: rest)) (hlocked : fr.locked = true) :
    fr.duringLock s := by
  obtain ⟨L, hlock, hL⟩ := h
  rw [List.filter_cons_of_pos hlocked] at hL
  obtain ⟨-, hduring, -⟩ := hlock.of_locked hL
  exact hduring

end

/-! ## The operations but READ (rule R165)

Each register access of theirs stands inside the locked section, at a label where the invariant has the power on. -/

section
variable {a : Nat} {s : State} {r : Fault}

/-- A bring-up faults at `BU.8` alone (rule R137). -/
theorem bringUp_fault {goal : LinkState} {f : BuFrame} (h : bringUp goal a f s = .fault r) :
    f.ctl.label = .bu8 ∧ s.pdActive = false := by
  cases hl : f.ctl.label <;> simp_all [bringUp, ite_eq_iff]

theorem tearDown_ne_fault {goal : LinkState} {f : TdFrame} : tearDown goal a f s ≠ .fault r := by
  cases hl : f.ctl.label <;> simp [tearDown, hl, powerOffIfOff, ite_eq_iff]

/-- An ENTER_LP faults at `EL.7a` alone (rule R151). -/
theorem enterLpStep_fault {f : ElFrame} (h : enterLpStep a f s = .fault r) :
    f.ctl.label = .el7a ∧ s.pdActive = false := by
  cases hl : f.ctl.label <;> simp_all [enterLpStep, ite_eq_iff]

theorem exitLpStep_ne_fault {f : XlFrame} : exitLpStep a f s ≠ .fault r := by
  cases hl : f.ctl.label <;> simp [exitLpStep, hl, ite_eq_iff]

/-- In its locked section a WRITE that has passed the state gate finds the link in ON, with the power on (rule R165). -/
theorem WriteFrame.duringLock.power {f : WriteFrame} (h : f.duringLock s) (hgate : f.ctl.label ≠ .w2)
    (hexit : f.ctl.label ≠ .w11) : s.pdActive = true := by
  have hon : s.settled ∧ s.link = .on := by cases hl : f.ctl.label <;> simp_all [WriteFrame.duringLock]
  obtain ⟨⟨hpd, -⟩, hlink⟩ := hon
  rw [hpd, hlink]
  rfl

/-- A WRITE faults only between its state gate and its exit. -/
theorem writeStep_fault {f : WriteFrame} (h : writeStep a f s = .fault r) :
    f.ctl.label.locked = true ∧ f.ctl.label ≠ .w2 ∧ f.ctl.label ≠ .w11 ∧ s.pdActive = false := by
  cases hl : f.ctl.label with
  | w9 =>
    simp only [writeStep, hl] at h
    exact absurd h (waitThen_ne_fault (by simp) (by simp))
  | _ => simp_all [writeStep, decideWait, ite_eq_iff, WLabel.locked]

/-- An operation but READ faults only inside its locked section, in a state the invariant rules out there. -/
theorem frameStep_fault {fr : Frame} (hop : fr.op ≠ 0x9) (h : frameStep a fr s = .fault r) :
    fr.locked = true ∧ ¬fr.duringLock s := by
  cases fr <;> simp only [frameStep, Micro.map_eq_fault] at h
  case enable f | doze f =>
    obtain ⟨hl, hpd⟩ := bringUp_fault h
    simp [Frame.locked, Frame.duringLock, BuFrame.duringLock, State.flagsAre, hl, hpd]
  case disable f | dozeSuspend f => exact absurd h tearDown_ne_fault
  case enterLp f =>
    obtain ⟨hl, hpd⟩ := enterLpStep_fault h
    simp [Frame.locked, Frame.duringLock, ElFrame.duringLock, State.flagsAre, hl, hpd]
  case exitLp f => exact absurd h exitLpStep_ne_fault
  case write f =>
    obtain ⟨hlocked, hgate, hexit, hpd⟩ := writeStep_fault h
    exact ⟨hlocked, fun hd => Bool.false_ne_true (hpd.symm.trans (WriteFrame.duringLock.power hd hgate hexit))⟩
  case read f => exact absurd rfl hop

/-- The operation in flight stays the same one (rule R22). -/
theorem frameStep_op (a : Nat) (fr : Frame) (s : State) : (frameStep a fr s).GoesOn fun fr' _ => fr'.op = fr.op := by
  cases fr <;> simp only [frameStep, Micro.goesOn_map] <;> exact Micro.goesOn_of_forall fun _ _ => rfl

theorem Frame.nestedOnlyInCalls_of_op {fr : Frame} (hop : fr.op ≠ 0x9) : fr.nestedOnlyInCalls := by
  cases fr with
  | read f => exact absurd rfl hop
  | _ => trivial

/-- An operation but READ of agent `a`, over the operations `rest` in flight there, as the invariant has it in `s`. -/
def Frame.SafeIn (a : Nat) (rest : List Frame) (fr : Frame) (s : State) : Prop :=
  fr.op ≠ 0x9 ∧ fr.targetSet ∧ s.lockSoundWith a (fr :: rest)

section
variable {fr : Frame} {rest : List Frame}

theorem Frame.SafeIn.frameStep_ne_fault (h : fr.SafeIn a rest s) : frameStep a fr s ≠ .fault r := by
  obtain ⟨hop, -, hlock⟩ := h
  intro hm
  obtain ⟨hlocked, hnot⟩ := frameStep_fault hop hm
  exact hnot (hlock.duringLock hlocked)

theorem frameStep_safeIn (h : fr.SafeIn a rest s) : (frameStep a fr s).GoesOn (Frame.SafeIn a rest) := by
  obtain ⟨hop, htarget, hlock⟩ := h
  have hop' := frameStep_op a fr s
  have htarget' := frameStep_targetSet htarget a s
  have hadv := frameStep_advances htarget (Frame.nestedOnlyInCalls_of_op hop) a s
  cases hm : frameStep a fr s with
  | blocked | fault | ret => trivial
  | cont fr' s' =>
    rw [hm] at hop' htarget' hadv
    obtain ⟨hadv, -⟩ := hadv
    exact ⟨hop' ▸ hop, htarget', hlock.advances hadv⟩

/-- No burst of an operation but READ faults: each micro-step keeps the lock's account, and with it the power. -/
theorem Frame.SafeIn.burst_ne_fault (h : fr.SafeIn a rest s) (n : Nat) : burst a id frameStep n fr s ≠ .fault r := by
  intro hb
  have hkeeps (fr : Frame) (v : State) (fr' : Frame) (v' : State) (hsafe : fr.SafeIn a rest v)
      (hm : frameStep a fr v = .cont fr' v') : fr'.SafeIn a rest v' := by
    have hnext := frameStep_safeIn hsafe
    rwa [hm] at hnext
  obtain ⟨fr', s', hsafe, hm⟩ := burst_fault _ hkeeps h hb
  exact hsafe.frameStep_ne_fault hm

end

/-! ## The turn that faults (rule R296) -/

theorem startFrame_op {p : Params} {i : Instr} {fr : Frame} (h : startFrame p i = some fr) : fr.op = i.opcode := by
  cases i <;> simp only [startFrame, Option.ite_none_right_eq_some, Option.some.injEq, reduceCtorEq] at h
  case doze | dozeSuspend => obtain ⟨-, rfl⟩ := h; rfl
  case enable | disable | enterLp | exitLp | write | read => cases h; rfl

theorem Instr.eq_read_of_opcode {i : Instr} (h : i.opcode = 0x9) :
    ∃ ty addr maxLen cap buf, i = .read ty addr maxLen cap buf := by
  cases i with
  | read ty addr maxLen cap buf => exact ⟨ty, addr, maxLen, cap, buf, rfl⟩
  | _ => simp [Instr.opcode] at h

/-- A turn given to an operation that faults: the burst of the frame with which it is accepted (`start`), or of the frame in
flight. -/
inductive State.FaultsIn (start : Option Frame) (s : State) (r : Fault) : Prop where
  | accepts (c : Caller) (fr : Frame) (hc : s.callers[s.cur]? = some c) (hacc : c.accepts = true)
      (hstart : start = some fr) (h : burst s.cur id frameStep s.quantum fr (s.accept s.cur fr) = .fault r)
  | goesOn (c : Caller) (fr : Frame) (rest : List Frame) (hc : s.callers[s.cur]? = some c) (hacc : c.accepts = false)
      (hstack : c.stack = fr :: rest) (h : burst s.cur id frameStep (s.quantum + 1) fr s = .fault r)

theorem conduct_fault {F : Type} {refusal : Option Refusal} {start : Option F} {view : Frame → Option F}
    {wrap : F → Frame} {micro : Nat → F → State → Micro F} (hview : ∀ fr f, view fr = some f → fr = wrap f)
    (hstep : ∀ f u, frameStep s.cur (wrap f) u = (micro s.cur f u).map wrap)
    (h : conduct refusal start view wrap micro s = .fault r) : s.FaultsIn (start.map wrap) r := by
  rcases conduct_cases h with ⟨-, hs⟩ | ⟨c, hc, hacc, ⟨_, -, hr⟩ | ⟨-, hadmit⟩⟩ | ⟨c, hc, hacc, ⟨-, hr⟩ | ⟨f, hf, hb⟩⟩
  · cases hs
  · cases hr
  · cases start with
    | none => rw [admitThen_none] at hadmit; cases hadmit
    | some f =>
      refine .accepts c (wrap f) hc hacc rfl ?_
      cases hq : s.quantum with
      | zero => rw [hq, admitThen_zero] at hadmit; cases hadmit
      | succ n => rwa [hq, admitThen_some, burst_eq_frames hstep] at hadmit
  · cases hr
  · obtain ⟨fr, hhead, hfr⟩ := Option.bind_eq_some_iff.mp hf
    obtain ⟨rest, hstack⟩ := List.head?_eq_some_iff.mp hhead
    rw [hview fr f hfr] at hstack
    rw [burst_eq_frames hstep] at hb
    exact .goesOn c (wrap f) rest hc hacc hstack hb

theorem answerUnsupported_ne_fault : answerUnsupported s ≠ .fault r := by
  unfold answerUnsupported
  split
  · nofun
  · split <;> nofun

/-- An operation that faults is carried out on its frame. -/
theorem exec_fault {i : Instr} (h : exec i s = .fault r) : s.FaultsIn (startFrame s.par i) r := by
  cases i <;> simp only [exec] at h
  case enable | disable | enterLp | exitLp =>
    simp only [execEnable, execDisable, execEnterLp, execExitLp] at h
    refine conduct_fault (fun fr f hf => ?_) (fun _ _ => rfl) h
    cases fr <;> simp_all [Frame.asEnable, Frame.asDisable, Frame.asEnterLp, Frame.asExitLp]
  case doze | dozeSuspend =>
    simp only [execDoze, execDozeSuspend] at h
    simpa only [startFrame, apply_ite, Option.map_some, Option.map_none] using conduct_fault
      (fun fr f hf => by cases fr <;> simp_all [Frame.asDoze, Frame.asDozeSuspend]) (fun _ _ => rfl) h
  case write | read =>
    refine conduct_fault (fun fr f hf => ?_) (fun _ _ => rfl) h
    cases fr <;> simp_all [Frame.asWrite, Frame.asRead]
  case reserved6 | reserved7 | reservedA | reservedB | reservedC | reservedD | reservedE | reservedF =>
    exact absurd h answerUnsupported_ne_fault

/-- Under the invariant an operation that faults is a READ. -/
theorem exec_fault_opcode {i : Instr} (hinv : s.Inv) (h : exec i s = .fault r) : i.opcode = 0x9 := by
  by_contra hread
  rcases exec_fault h with ⟨c, fr, hc, -, hstart, hburst⟩ | ⟨c, fr, rest, hc, hacc, hstack, hburst⟩
  · obtain ⟨-, hout⟩ := startFrame_outside hstart
    have hsafe : fr.SafeIn s.cur c.stack (s.accept s.cur fr) :=
      ⟨startFrame_op hstart ▸ hread, startFrame_targetSet hstart, (hinv.lockSoundWith hc).accept hout _⟩
    exact hsafe.burst_ne_fault _ hburst
  · have hop : fr.op = i.opcode := by
      by_contra hother
      cases (exec_of_other hc hacc hstack hother).symm.trans h
    have hlock : s.lockSoundWith s.cur (fr :: rest) := hstack ▸ hinv.lockSoundWith hc
    obtain ⟨htargets, -⟩ := hinv
    have hsafe : fr.SafeIn s.cur rest s :=
      ⟨hop ▸ hread, htargets c (List.mem_of_getElem? hc) fr (by simp [hstack]), hlock⟩
    exact hsafe.burst_ne_fault _ hburst

/-- A run of the handler has the line enabled, and so the power on (rule R262). -/
theorem irqTurn_ne_fault (hinv : s.Inv) : irqTurn s ≠ .fault r := by
  obtain ⟨hbusy, hen⟩ := hinv.handlerAccounted
  obtain ⟨-, hline⟩ := hinv.powered
  have hpd (hrun : s.irq.label ≠ .idle) : s.pdActive = true := hline (hen (hbusy.mpr hrun))
  have hstep : irqStep s.irq s ≠ .fault r := by
    cases hl : s.irq.label <;> simp [irqStep, hl, hpd, ite_eq_iff]
  unfold irqTurn
  split <;> simp_all

/-- A watchdog that is due is armed, and so the power is on (rule R246). -/
theorem wdtTurn_ne_fault (hinv : s.Inv) : wdtTurn s ≠ .fault r := by
  cases hdue : s.wdDue with
  | false => simp [wdtTurn_of_not_due hdue]
  | true =>
    obtain ⟨harmed, -⟩ := (wdDue_eq_true_iff s).mp hdue
    obtain ⟨hpd, -⟩ := hinv.powered
    simp [wdtTurn_of_due hdue (hpd harmed)]

theorem presentRequest_ne_fault {q : Request} : presentRequest a q s ≠ .fault r := by
  unfold presentRequest
  split
  · nofun
  · split <;> nofun

/-- Under the invariant a turn that faults is one in which a caller agent executes a READ. -/
theorem runTurn_fault {turn : Turn} (hinv : s.Inv) (h : runTurn turn s = .fault r) :
    ∃ a more c ty addr maxLen cap buf, turn = .caller a more ∧ s.callers[a]? = some c ∧
      c.nextInstr s.par = some (.ok (.read ty addr maxLen cap buf)) := by
  cases turn with
  | caller a more =>
    simp only [runTurn, callerTurn] at h
    split at h
    case h_1 => cases h
    case h_2 c hc =>
      split at h
      case h_1 | h_2 => cases h
      case h_3 i hi =>
        have hfocus : (s.focus a more).Inv := hinv.calmer rfl rfl ⟨⟨rfl, rfl, rfl, rfl⟩, id⟩ hinv.handlerAccounted
        obtain ⟨ty, addr, maxLen, cap, buf, rfl⟩ := Instr.eq_read_of_opcode (exec_fault_opcode hfocus h)
        exact ⟨a, more, c, ty, addr, maxLen, cap, buf, rfl, hc, hi⟩
  | irq => exact absurd h (irqTurn_ne_fault hinv)
  | wdt => exact absurd h (wdtTurn_ne_fault hinv)
  | tick | hostStore => cases h
  | request b q => exact absurd h presentRequest_ne_fault

end

/-- Settles O14: taking the turn keeps the invariant, and the turn is that of a caller agent with a READ. -/
theorem faultsOnlyInRead : Obligations.FaultsOnlyInRead := by
  intro s r hinv hnone h
  have htaken : s.turnTaken.Inv := hinv.calmer (by simp) (by simp)
    (by simp [State.Calmer, State.SameLinkAndFlags]) (by simpa [State.handlerAccounted] using hinv.handlerAccounted)
  have hrun : runTurn s.nextTurn s.turnTaken = .fault r := by simpa [step, hnone] using h
  simpa using runTurn_fault htaken hrun

/-! ## The two ways to the fault, both in READ (rules R220, R224, R334) -/

/-- A burst whose next micro-step faults is that fault. -/
theorem burst_of_fault {F : Type} {a : Nat} {wrap : F → Frame} {micro : Nat → F → State → Micro F} {f : F} {s : State}
    {r : Fault} (h : micro a f s = .fault r) (n : Nat) : burst a wrap micro (n + 1) f s = .fault r := by
  rw [burst_succ, h]

section
variable (a : Nat) {f : ReadFrame} {s : State} (hpd : s.pdActive = false)
include hpd

/-- `R.3` without power (rule R220). -/
theorem readStep_clear_faults (hl : f.ctl.label = .r3) (hown : s.lock ≠ .held a) :
    readStep a f s = .fault .noPower := by
  simp only [readStep, hl, unlessStuck_of_not_own hown, reg_of_no_power hpd]

/-- `R.9` without power (rule R224). -/
theorem readStep_pop_faults (hl : f.ctl.label = .r9) : readStep a f s = .fault .noPower := by
  simp only [readStep, hl, regAsk_of_no_power hpd]

end

/-- A READ issued outside OFF without power passes its gate and faults at `R.3` (rules R201, R220, R334). -/
theorem exec_read_without_power {s : State} {c : Caller} {ty addr : Byte} {maxLen cap : Half} {buf : Option BufHandle}
    (hidle : s.idleAs c) (hwf : (Instr.read ty addr maxLen cap buf).wellFormed s.par = true) (hlink : s.link ≠ .off)
    (hpd : s.pdActive = false) (hown : s.lock ≠ .held s.cur) (hq : 30 ≤ s.quantum) :
    exec (.read ty addr maxLen cap buf) s = .fault .noPower := by
  obtain ⟨n, hn⟩ : ∃ n, s.quantum = n + 1 := ⟨s.quantum - 1, by omega⟩
  obtain ⟨m, hm⟩ : ∃ m, n + 1 - 3 = m + 1 := ⟨n - 3, by omega⟩
  rw [exec_read_of_wellFormed hwf, conduct_of_idle hidle _ _ _ _ hn,
    burst_of_micros (readStep_passes_gate s.cur ty addr maxLen cap buf (by exact hlink)) (by omega), hm]
  exact burst_of_fault (by exact readStep_clear_faults s.cur hpd rfl hown) m

/-- A READ signaled once the power is gone faults at its first pop, `R.9` (rules R224, R334). -/
theorem exec_read_signaled_without_power {s : State} {c : Caller} {f : ReadFrame} {rest : List Frame}
    (hruns : s.runs c (.read f) rest) (hl : f.ctl.label = .r6) (hrd : s.sigRd.done = true)
    (hnow : s.now < f.t0 + s.par.rdTimeout.val) (hfree : s.lock = .free) (hpd : s.pdActive = false)
    (hq : 10 ≤ s.quantum) : exec (Frame.read f).instr s = .fault .noPower := by
  obtain ⟨n, hn⟩ : ∃ n, s.quantum + 1 = n + 1 + 4 := ⟨s.quantum - 4, by omega⟩
  rw [exec_read_of_runs hruns, hn, readStep_enters_drain _ _ _ hl hrd hnow hfree]
  exact burst_of_fault (by exact readStep_pop_faults s.cur hpd rfl) n

/-- Settles O47: the first register access of a READ, and the first pop after its wait. -/
theorem readWithoutPowerFaults : Obligations.ReadWithoutPowerFaults :=
  ⟨fun _ _ _ _ _ _ _ => exec_read_without_power, fun _ _ _ _ => exec_read_signaled_without_power⟩

end Sys2Proof.Machine
end
